-- ==== Sys2Proof/Word.lean ====
section
/-!
DEFINITION. The word types of the Sepkon 2460: bytes and two-byte numbers as frames carry them (spec 01, section 1.7),
and the index types of what the part has a fixed number of.
-/

namespace Sys2Proof

/-- One byte of a frame. -/
abbrev Byte := BitVec 8

/-- A number of two bytes: an event code, a check, a count of 0 to 65535. -/
abbrev Half := BitVec 16

/-- A field port, F0 to F5 (spec 00, Names). -/
abbrev PortId := Fin 6

/-- A requester of the Classifier: 0 to 5 for F0 to F5, 6 for INTERNAL (spec 04, section 4.2). -/
abbrev Requester := Fin 7

/-- A priority level (spec 00, Names). -/
abbrev LevelId := Fin 16

/-- A condition slot (spec 05, section 5.1). -/
abbrev SlotId := Fin 32

/-- An entry of a table bank (spec 03, section 3.1). -/
abbrev EntryId := Fin 64

/-- A reply slot of the Management Unit (spec 10, section 10.1). -/
abbrev ReplySlotId := Fin 4

/-- A refusal slot of the Management Unit (spec 10, section 10.1). -/
abbrev RefusalSlotId := Fin 2

end Sys2Proof
end

