-- ==== Sys2Proof/Syntax.lean ====
section
/-!
DEFINITION. The commands of the part: one constructor of Instr for each row of spec/opcode_table.json, with the operands
that come from outside. A frame's command carries the fields its sender chose (spec 01, section 1.7); its symbols on the
line, with their check, are built from them by the machine (notes/assumptions/4.md).
-/

namespace Sys2Proof

/-- The symbols a line carries (R1, section 1.1), and the pattern that is none of them. -/
inductive Symbol where
  | idle
  | start
  | data (b : Byte)
  | endMarker
  | abort
  | violation
deriving DecidableEq, Repr

/-- The seven links of the part. -/
inductive Link where
  | field (port : PortId)
  | trunk
deriving DecidableEq, Repr

/-- What each line shows at the release of RESET_N (R2): whether valid symbols have been arriving for the qualifying time. -/
structure LineJudgement where
  fields : Vector Bool 6
  trunk : Bool
deriving DecidableEq, Repr

/-- The commands, in the order of the table. -/
inductive Instr where
  /-- RESET_N_LOW (R155). -/
  | resetNLow
  /-- RESET_N_RELEASE (R155, R2). -/
  | resetNRelease (lines : LineJudgement)
  /-- LINE_COMES_LIVE (R2). -/
  | lineComesLive (link : Link)
  /-- LINE_GOES_DEAD (R2). -/
  | lineGoesDead (link : Link)
  /-- EVENT (R15): a node sends an EVENT frame; `spare` is bits 5 and 4 of the cond/seq byte. -/
  | event (port : PortId) (node : Byte) (code : Half) (cond spare : BitVec 2) (seq : BitVec 4) (payload : List Byte)
  /-- BAD_FRAME (R15): the symbols of a frame that earns another verdict than VALID. -/
  | badFrame (port : PortId) (symbols : List Symbol)
  /-- BAD_TRUNK_FRAME (R125): the same on the trunk. -/
  | badTrunkFrame (symbols : List Symbol)
  /-- COMPLETE (R117). -/
  | complete (ticket outcome : Byte)
  /-- COMPLETE_TOP (R118). -/
  | completeTop (outcome : Byte)
  /-- PAUSE (R128). -/
  | pause (duration : Byte)
  /-- RESUME (R128). -/
  | resume
  /-- PAUSE_TIMER_EXPIRES (R128). -/
  | pauseTimerExpires
  /-- REQUEST (R140). -/
  | request (tag op : Byte) (operands : List Byte)
  /-- CLASSIFICATION_START (R51). -/
  | classificationStart
  /-- CLASSIFICATION_COMPLETES (R52). -/
  | classificationCompletes
  /-- SWAP_TAKES_EFFECT (R80). -/
  | swapTakesEffect
  /-- COPY_STEP (R78). -/
  | copyStep
  /-- COPY_COMPLETES (R78). -/
  | copyCompletes
  /-- RELEASE_TRANSMISSION_START (R20). -/
  | releaseTransmissionStart (port : PortId)
  /-- RELEASE_COMPLETES (R21). -/
  | releaseCompletes (port : PortId)
  /-- REPLY_GRANT (R130). -/
  | replyGrant
  /-- NOTICE_GRANT (R134). -/
  | noticeGrant
  /-- RESEND_GRANT (R114). -/
  | resendGrant
  /-- DISPATCH_GRANT (R108). -/
  | dispatchGrant
  /-- REPLY_COMPLETES (R143). -/
  | replyCompletes
  /-- NOTICE_COMPLETES (R131). -/
  | noticeCompletes
  /-- FIRST_TRANSMISSION_ENDS (R110). -/
  | firstTransmissionEnds
  /-- RESEND_ENDS (R115). -/
  | resendEnds
  /-- SERVICE_TIMER_EXPIRES (R113). -/
  | serviceTimerExpires (level : LevelId)
  /-- IDENT (R145): the head request is executed; so for every row below. -/
  | ident
  /-- READ_ENTRY (R74). -/
  | readEntry
  /-- WRITE_ENTRY (R42). -/
  | writeEntry
  /-- CLEAR_ENTRY (R43). -/
  | clearEntry
  /-- WRITE_DEFAULT (R42). -/
  | writeDefault
  /-- COPY_BANK (R77). -/
  | copyBank
  /-- SWAP_BANKS (R79). -/
  | swapBanks
  /-- READ_LEVEL (R99). -/
  | readLevel
  /-- WRITE_LEVEL (R98). -/
  | writeLevel
  /-- SET_ORDER (R106). -/
  | setOrder
  /-- MASK_LEVELS (R88). -/
  | maskLevels
  /-- FLUSH_LEVEL (R97). -/
  | flushLevel
  /-- READ_PORT (R18). -/
  | readPort
  /-- WRITE_PORT (R23). -/
  | writePort
  /-- READ_TRUNK (R127). -/
  | readTrunk
  /-- READ_CONDITION (R69). -/
  | readCondition
  /-- CLEAR_CONDITION (R70). -/
  | clearCondition
  /-- INJECT (R57). -/
  | inject
  /-- READ_POOL (R100). -/
  | readPool
  /-- NOTICE_ENABLE (R135). -/
  | noticeEnable
  /-- RESET_TRAFFIC (R150). -/
  | resetTraffic
  /-- RESET_FULL (R151). -/
  | resetFull
  /-- UNSUPPORTED_OP (R144). -/
  | unsupportedOp
deriving DecidableEq, Repr

end Sys2Proof
end

