-- ==== Sys2Proof/Decode.lean ====
section
/-!
DEFINITION. Commands spelt by the table's bits. No row of spec/opcode_table.json gives any bits ("fields" is empty in each),
so no word spells a command (notes/assumptions/26.md).
-/

namespace Sys2Proof

/-- The command a word of the opcode table spells: none, since no row gives bits. -/
def decodeTableWord (_nbits _w : Nat) : Option Instr := none

end Sys2Proof
end

