-- ==== Sys2Proof/Config.lean ====
section
/-!
DEFINITION. What the part fixes: its identity and capacities (R145) and the sizes of its queues.
The manual calls no result undefined and leaves no value to an implementation, so there is no free value here.
-/

namespace Sys2Proof.Config

/-- `vendor` of IDENT (R145). -/
def vendor : Half := 0x4A46

/-- `part` of IDENT (R145). -/
def part : Half := 2460

/-- `revision` of IDENT (R145). -/
def revision : Byte := 3

/-- Field ports of the part (R145). -/
def ports : Byte := 6

/-- Entries of a bank (R145). -/
def entries : Byte := 64

/-- Banks of the Table Store (R145). -/
def banks : Byte := 2

/-- Priority levels (R145). -/
def levels : Byte := 16

/-- Event records of the pool, as IDENT gives them (R145). -/
def records : Byte := 128

/-- Condition slots (R145). -/
def slots : Byte := 32

/-- Requests the Management Unit takes (R145). -/
def requests : Byte := 4

/-- Frames a port's receive queue holds (R16). -/
def receiveCapacity : Nat := 4

/-- Requests a port's release queue holds (R19). -/
def releaseCapacity : Nat := 8

/-- Event records of the pool (R85). -/
def poolSize : Nat := 128

end Sys2Proof.Config
end

