-- ==== Sys2Proof/Machine/State.lean ====
section
/-!
DEFINITION. The state of the part as plain data, unit by unit as the chapters of the manual give it, and the state right
after the release of RESET_N. Sets that frames carry with one bit per member are bit vectors, first member in bit 0 (R132).
-/

namespace Sys2Proof.Machine

/-- The reasons a step could stop with a fault. The manual names none (notes/assumptions/29.md), so nobody raises one: safe,
because every step answers a next state. -/
inductive Fault where
deriving DecidableEq, Repr

/-- The reasons a step could refuse a command. -/
inductive Refusal where
  /-- A command that has no meaning yet; raised by exec's arms alone, and by no arm now. Safe: nothing is claimed of it. -/
  | notModelled (mnemonic : String)
deriving DecidableEq, Repr

/-! ### Links -/

/-- A frame in assembly: the first bytes, up to what the receiver stores, the count of all bytes and the running check
(R3). -/
structure RxFrame where
  stored : List Byte
  count : Nat
  crc : Half
deriving DecidableEq, Repr

/-- A line receiver: DEAD, or LIVE in HUNT, or LIVE in IN-FRAME (R2, section 1.3). -/
inductive Receiver where
  | dead
  | hunt
  | inFrame (frame : RxFrame)
deriving DecidableEq, Repr

/-- The two sorts of line receiver, which differ in what they store and accept (R3, R7). -/
inductive LinkKind where
  | field
  | trunk
deriving DecidableEq, Repr

/-- The verdict on a frame (R4); a VALID frame comes with all its bytes. -/
inductive Verdict where
  | framing
  | check
  | unknownKind
  | format
  | valid (bytes : List Byte)
deriving DecidableEq, Repr

/-- `cond` of an event (section 1.7). -/
inductive Cond where
  | pulse
  | assert
  | clear
deriving DecidableEq, Repr

/-- What an EVENT frame tells, and what an injected event consists of (section 1.7, R57). -/
structure Event where
  node : Byte
  code : Half
  cond : Cond
  seq : BitVec 4
  payload : List Byte
deriving DecidableEq, Repr

/-! ### Field Port Units (chapter 2) -/

/-- `outcome` of a RELEASE (section 1.7). -/
inductive ReleaseOutcome where
  | done
  | refused
  | lapsed
  | flushed
deriving DecidableEq, Repr

/-- A request in a release queue (section 2.5). -/
structure ReleaseRequest where
  node : Byte
  code : Half
  seq : BitVec 4
  outcome : ReleaseOutcome
deriving DecidableEq, Repr

/-- The sticky conditions of a port, in the order of their bits (section 10.5.1). -/
inductive PortCondition where
  | overrun
  | framing
  | check
  | format
  | releaseLost
  | linkChange
deriving DecidableEq, Repr

/-- The port states (section 2.1). -/
inductive PortState where
  | disabled
  | down
  | up
deriving DecidableEq, Repr

/-- A field transmitter: IDLE (`none`) or SENDING its copy of a frame (R10), and the symbol that ended its latest frame. -/
structure FieldTransmitter where
  sending : Option (List Byte)
  closing : Symbol
deriving DecidableEq, Repr

/-- A Field Port Unit (section 2.1). `headMarked`: the head of `releases` is marked as in transmission (R20). -/
structure FieldPort where
  enabled : Bool
  noticeEnabled : Bool
  rx : Receiver
  received : List Event
  releases : List ReleaseRequest
  headMarked : Bool
  conditions : BitVec 6
  tx : FieldTransmitter
deriving DecidableEq, Repr

/-! ### Table Store (chapters 3 and 6) -/

/-- What an entry does with an event, with the level and slot that R31 makes present. -/
inductive EntryAction where
  | forward (level : LevelId)
  | hold (level : LevelId)
  | track (level : LevelId) (slot : SlotId)
  | count
  | discard
deriving DecidableEq, Repr

/-- The definition of a valid entry (section 3.1). -/
structure Definition where
  ports : BitVec 7
  nodeValue : Byte
  nodeMask : Byte
  codeValue : Half
  codeMask : Half
  conds : BitVec 3
  action : EntryAction
deriving DecidableEq, Repr

/-- A valid entry: its definition and its hits. -/
structure Entry where
  definition : Definition
  hits : Half
deriving DecidableEq, Repr

/-- What the default record does with an event (R32). -/
inductive DefaultAction where
  | forward
  | count
  | discard
deriving DecidableEq, Repr

/-- The default record of a bank (R32). -/
structure DefaultRecord where
  action : DefaultAction
  level : LevelId
  hits : Half
deriving DecidableEq, Repr

/-- A bank: 64 entries, an invalid one being absent (R30), and the default record. -/
structure Bank where
  entries : Vector (Option Entry) 64
  defaultRecord : DefaultRecord
deriving DecidableEq, Repr

/-- Bank A or bank B. -/
inductive BankId where
  | a
  | b
deriving DecidableEq, Repr

/-- A request whose reply comes later: the reply slot it holds and its `tag` (R51, R77, R79). -/
structure PendingReply where
  slot : ReplySlotId
  tag : Byte
deriving DecidableEq, Repr

/-- The copy progress: the next item to be copied, or nothing left before the completion (R77, R78). -/
inductive CopyProgress where
  | entry (index : EntryId)
  | defaultRecord
  | finished
deriving DecidableEq, Repr

/-- The bank-operation state with what it holds (R76, section 6.1). -/
inductive BankOperation where
  | idle
  | copying (progress : CopyProgress) (reply : PendingReply)
  | swapPending (reply : PendingReply)
deriving DecidableEq, Repr

/-- The Table Store (section 6.1). -/
structure TableStore where
  bankA : Bank
  bankB : Bank
  active : BankId
  generation : Byte
  operation : BankOperation
deriving DecidableEq, Repr

/-! ### Classifier (chapter 4) -/

/-- The event in flight with what was noted at its start (R51); `reply` is present for an injected event. -/
structure FlightEvent where
  requester : Requester
  event : Event
  bank : BankId
  generation : Byte
  reply : Option PendingReply
deriving DecidableEq, Repr

/-- The event in the injection slot, with its INJECT request (R57). -/
structure InjectedEvent where
  event : Event
  reply : PendingReply
deriving DecidableEq, Repr

/-- The Classifier: CLASSIFYING exactly while an event is in flight (R48). -/
structure Classifier where
  inFlight : Option FlightEvent
  pointer : Requester
  injection : Option InjectedEvent
deriving DecidableEq, Repr

/-! ### Condition Tracker (chapter 5) -/

/-- `state` of a condition slot (section 5.1). -/
inductive TrackState where
  | unknown
  | asserted
  | cleared
deriving DecidableEq, Repr

/-- A condition slot (R62); `last` is `last_port` and `last_node`, present or absent together. -/
structure ConditionSlot where
  state : TrackState
  last : Option (Requester × Byte)
  changes : Half
  absorbed : Byte
deriving DecidableEq, Repr

/-- The outcomes of a classification's action (R58). -/
inductive ActionOutcome where
  | queued
  | coalesced
  | duplicate
  | dropped
  | refusedPool
  | absorbed
  | counted
  | discarded
deriving DecidableEq, Repr

/-- What a lookup decided: the entry's index, or nothing for the default record, and the action (R34). -/
structure Decision where
  decider : Option EntryId
  action : EntryAction
deriving DecidableEq, Repr

/-! ### Level Unit (chapter 7) -/

/-- `kind` of an event record (R86). -/
inductive RecordKind where
  | posted
  | held
deriving DecidableEq, Repr

/-- An event record, and an admission request, which has the same fields (R54, R65, R86). -/
structure Record where
  kind : RecordKind
  level : LevelId
  origin : Requester
  node : Byte
  code : Half
  cond : Cond
  seq : BitVec 4
  payload : List Byte
  repeats : Byte
  gen : Byte
  mayCoalesce : Bool
deriving DecidableEq, Repr

/-- `policy` of a level (R88). -/
inductive Policy where
  | dropNew
  | dropOld
deriving DecidableEq, Repr

/-- The five settings of a level (R88). -/
structure LevelSettings where
  limit : Byte
  policy : Policy
  coalesce : Bool
  timeout : Byte
  retries : Byte
deriving DecidableEq, Repr

/-- The seven counts of a level (R89). -/
structure LevelCounts where
  dispatched : Half
  done : Half
  rejected : Half
  lapsed : Half
  dropped : Half
  flushed : Half
  highWater : Half
deriving DecidableEq, Repr

/-- A level: its pending queue, settings, mask bit and counts (section 7.2). -/
structure Level where
  queue : List Record
  settings : LevelSettings
  masked : Bool
  counts : LevelCounts
deriving DecidableEq, Repr

/-- The Level Unit; the free records are what the queues, the records in service and `inTransmission` leave of 128 (R85). -/
structure LevelUnit where
  levels : Vector Level 16
  inTransmission : Option Record
  lowWater : Byte
  refusals : Half
deriving DecidableEq, Repr

/-! ### Service Unit (chapter 8) -/

/-- The priority mode (R105). -/
inductive PriorityMode where
  | fixed
  | rotating
deriving DecidableEq, Repr

/-- The nesting mode (R107). -/
inductive Nesting where
  | nested
  | flat
deriving DecidableEq, Repr

/-- The service sub-state (R103); the timer, with the units it was started for, is part of AWAITING alone (R112). -/
inductive SubState where
  | dispatching
  | awaiting (timer : Option Byte)
  | resendWait
  | resending
deriving DecidableEq, Repr

/-- The outcomes of a retire (R116). -/
inductive RetireOutcome where
  | done
  | reject
  | lapsed
  | flushed
deriving DecidableEq, Repr

/-- A held record in service (R103). -/
structure ServiceRecord where
  record : Record
  ticket : Byte
  attempt : Byte
  phase : SubState
deriving DecidableEq, Repr

/-- The Service Unit (section 8.1). -/
structure ServiceUnit where
  mode : PriorityMode
  lowest : LevelId
  nesting : Nesting
  inService : Vector (Option ServiceRecord) 16
  ticketCounter : Byte
deriving DecidableEq, Repr

/-! ### Notice Unit (chapter 9) -/

/-- The notice kinds (R132). -/
inductive NoticeKind where
  | restarted
  | port
  | level
  | lapse
  | pool
  | trunk
deriving DecidableEq, Repr

/-- A frozen NOTICE frame (R134). -/
structure NoticeFrame where
  kind : NoticeKind
  nseq : Byte
  data : List Byte
deriving DecidableEq, Repr

/-- `cause` of a RESTARTED notice (R132). -/
inductive RestartCause where
  | power
  | full
deriving DecidableEq, Repr

/-- The RESTARTED accumulation (R132). -/
structure Restarted where
  cause : RestartCause
  tag : Byte
deriving DecidableEq, Repr

/-- The LAPSE accumulation (R132). -/
structure Lapses where
  count : Byte
  ticket : Byte
  level : LevelId
deriving DecidableEq, Repr

/-- The Notice Unit: a latch is set exactly while its accumulation is present (R133). `enables`: PORT, LEVEL, LAPSE, POOL,
TRUNK from bit 0 (section 10.5). -/
structure NoticeUnit where
  restarted : Option Restarted
  port : Option (BitVec 6)
  level : Option (BitVec 16)
  lapse : Option Lapses
  pool : Option Byte
  trunk : Option (BitVec 7)
  returned : Option NoticeFrame
  enables : BitVec 5
  nseq : Byte
deriving DecidableEq, Repr

/-! ### Management Unit (chapter 10) -/

/-- The statuses (section 10.4). -/
inductive Status where
  | ok
  | illegal
  | busy
  | conflict
  | unsupported
  | malformed
  | queueFull
deriving DecidableEq, Repr

/-- What a REPLY frame says (section 1.7). -/
structure Reply where
  tag : Byte
  op : Byte
  status : Status
  data : List Byte
deriving DecidableEq, Repr

/-- The progress of an accepted request (R139). -/
inductive Progress where
  | queued
  | awaitingCompletion
  | replyReady
deriving DecidableEq, Repr

/-- A held reply slot (section 10.1). -/
structure ReplySlot where
  tag : Byte
  op : Byte
  progress : Progress
deriving DecidableEq, Repr

/-- An accepted request not yet executed, with the reply slot it holds (R140). -/
structure QueuedRequest where
  slot : ReplySlotId
  tag : Byte
  op : Byte
  operands : List Byte
deriving DecidableEq, Repr

/-- The Management Unit (section 10.1). -/
structure Management where
  slots : Vector (Option ReplySlot) 4
  queue : List QueuedRequest
  refusals : Vector (Option Reply) 2
deriving DecidableEq, Repr

/-! ### Trunk Port (chapter 9) -/

/-- The slot a produced reply came from (R143). -/
inductive ReplySource where
  | reply (slot : ReplySlotId)
  | refusal (slot : RefusalSlotId)
deriving DecidableEq, Repr

/-- A member of the reply class (R130). -/
structure ProducedReply where
  source : ReplySource
  reply : Reply
deriving DecidableEq, Repr

/-- The class of a granted frame and what its end or abort is reported for (R131). `cancelled`: the kind was turned off while
the frame was on the wire (R135). A dispatched posted record has no ticket. -/
inductive GrantedFrame where
  | reply
  | notice (frame : NoticeFrame) (cancelled : Bool)
  | resend (level : LevelId) (ticket : Byte)
  | dispatch (level : LevelId) (ticket : Option Byte)
deriving DecidableEq, Repr

/-- The copy of a granted frame (R10, R130). -/
structure TrunkFrame where
  granted : GrantedFrame
  bytes : List Byte
deriving DecidableEq, Repr

/-- The trunk transmitter, as FieldTransmitter. -/
structure TrunkTransmitter where
  sending : Option TrunkFrame
  closing : Symbol
deriving DecidableEq, Repr

/-- The sticky trunk conditions, in the order of their bits (R132). -/
inductive TrunkCondition where
  | framing
  | check
  | format
  | unknownKind
  | stray
  | mgmtDrop
  | linkChange
deriving DecidableEq, Repr

/-- The pause state with its timer's units (R128). -/
inductive PauseState where
  | running
  | paused (units : Byte)
deriving DecidableEq, Repr

/-- The Trunk Port (section 9.1). -/
structure TrunkPort where
  rx : Receiver
  conditions : BitVec 7
  strays : Half
  pause : PauseState
  tx : TrunkTransmitter
  replies : List ProducedReply
deriving DecidableEq, Repr

/-! ### The whole part -/

/-- The state of the part, and the queue of the commands that wait. -/
structure State where
  resetHeld : Bool
  ports : Vector FieldPort 6
  classifier : Classifier
  table : TableStore
  conditions : Vector ConditionSlot 32
  levelUnit : LevelUnit
  service : ServiceUnit
  trunk : TrunkPort
  notices : NoticeUnit
  management : Management
  pending : List Instr
deriving DecidableEq, Repr

/-! ### Pin-reset state of each unit -/

/-- A port after a pin reset, with its receiver as the line shows it (R27). -/
def FieldPort.initial (rx : Receiver) : FieldPort where
  enabled := true
  noticeEnabled := true
  rx := rx
  received := []
  releases := []
  headMarked := false
  conditions := 0
  tx := { sending := none, closing := .idle }

/-- The default record after a reset (R45). -/
def DefaultRecord.initial : DefaultRecord where
  action := .discard
  level := 0
  hits := 0

/-- A cleared bank (R45). -/
def Bank.initial : Bank where
  entries := Vector.replicate 64 none
  defaultRecord := DefaultRecord.initial

/-- The Table Store after a pin or FULL reset (R45, R46). -/
def TableStore.initial : TableStore where
  bankA := Bank.initial
  bankB := Bank.initial
  active := .a
  generation := 0
  operation := .idle

/-- The Classifier after every kind of reset (R60, R61). -/
def Classifier.initial : Classifier where
  inFlight := none
  pointer := 0
  injection := none

/-- The cleared form of a condition slot (R62). -/
def ConditionSlot.initial : ConditionSlot where
  state := .unknown
  last := none
  changes := 0
  absorbed := 0

/-- The default settings of a level (R88). -/
def LevelSettings.initial : LevelSettings where
  limit := 8
  policy := .dropNew
  coalesce := false
  timeout := 100
  retries := 2

/-- The counts of a level after a pin or FULL reset (R102). -/
def LevelCounts.initial : LevelCounts where
  dispatched := 0
  done := 0
  rejected := 0
  lapsed := 0
  dropped := 0
  flushed := 0
  highWater := 0

/-- A level after a pin or FULL reset (R102). -/
def Level.initial : Level where
  queue := []
  settings := LevelSettings.initial
  masked := false
  counts := LevelCounts.initial

/-- The Level Unit after a pin or FULL reset (R102). -/
def LevelUnit.initial : LevelUnit where
  levels := Vector.replicate 16 Level.initial
  inTransmission := none
  lowWater := Config.records
  refusals := 0

/-- The Service Unit after a pin or FULL reset (R123). -/
def ServiceUnit.initial : ServiceUnit where
  mode := .fixed
  lowest := 0
  nesting := .nested
  inService := Vector.replicate 16 none
  ticketCounter := 0

/-- The Trunk Port after a pin reset, with its receiver as the line shows it (R136). -/
def TrunkPort.initial (rx : Receiver) : TrunkPort where
  rx := rx
  conditions := 0
  strays := 0
  pause := .running
  tx := { sending := none, closing := .idle }
  replies := []

/-- The Notice Unit after a pin or FULL reset, RESTARTED latched (R136, R137). -/
def NoticeUnit.initial (cause : RestartCause) (tag : Byte) : NoticeUnit where
  restarted := some { cause := cause, tag := tag }
  port := none
  level := none
  lapse := none
  pool := none
  trunk := none
  returned := none
  enables := BitVec.allOnes 5
  nseq := 0

/-- The Management Unit after a pin or FULL reset (R151, R152). -/
def Management.initial : Management where
  slots := Vector.replicate 4 none
  queue := []
  refusals := Vector.replicate 2 none

/-- The state right after the release of RESET_N, on lines that show no signal: that the lines are DEAD is DESIGN CHOICE,
unsafe (notes/assumptions/10.md); the rest is the manual's (R155 and the rules it names). -/
def State.reset : State where
  resetHeld := false
  ports := Vector.replicate 6 (FieldPort.initial .dead)
  classifier := Classifier.initial
  table := TableStore.initial
  conditions := Vector.replicate 32 ConditionSlot.initial
  levelUnit := LevelUnit.initial
  service := ServiceUnit.initial
  trunk := TrunkPort.initial .dead
  notices := NoticeUnit.initial .power 0
  management := Management.initial
  pending := []

end Sys2Proof.Machine
end

