-- ==== Sys2Proof/Machine/Ops.lean ====
section
/-!
DEFINITION. The shared operations: tables of a fixed size, saturating counts, sets, bytes; the updates of State by unit; the
views that the manual defines from other state (port state, link state, free records, rank order); what RESET_N held low does
to every command.
-/

namespace Sys2Proof.Machine

/-! ### Tables, counts, sets and bytes -/

/-- The item of a table at an index. -/
def look {α : Type} {n : Nat} (v : Vector α n) (i : Fin n) : α := v[i]

/-- The table with one item replaced. -/
def put {α : Type} {n : Nat} (v : Vector α n) (i : Fin n) (x : α) : Vector α n := v.set i x

/-- The table that holds `f i` at every index. -/
def tabulate {α : Type} {n : Nat} (f : Fin n → α) : Vector α n := Vector.ofFn f

/-- A count that stops at its maximum (spec 00, Numbers and units). -/
def satInc {n : Nat} (x : BitVec n) : BitVec n := if x = BitVec.allOnes n then x else x + 1

/-- `k` rises of a count that stops at its maximum. -/
def satAdd {n : Nat} (x : BitVec n) (k : Nat) : BitVec n :=
  if x.toNat + k < 2 ^ n then x + BitVec.ofNat n k else BitVec.allOnes n

/-- Membership in a set held one bit per member. -/
def member {n : Nat} (s : BitVec n) (i : Nat) : Bool := s.getLsbD i

/-- The set with a member joined (a member already in it stays in it once). -/
def insertMember {n : Nat} (s : BitVec n) (i : Nat) : BitVec n := s ||| BitVec.twoPow n i

/-- The high byte of a two-byte field. -/
def hiByte (h : Half) : Byte := h.extractLsb' 8 8

/-- The low byte of a two-byte field. -/
def loByte (h : Half) : Byte := h.extractLsb' 0 8

/-- A two-byte number from its bytes. -/
def joinBytes (hi lo : Byte) : Half := hi ++ lo

/-- A two-byte number as it is sent, high byte first (R1). -/
def numberBytes (h : Half) : List Byte := [hiByte h, loByte h]

/-- A two-byte set as it is sent, low byte first (R1). -/
def setBytes (h : BitVec 16) : List Byte := [loByte h, hiByte h]

/-- A number as one byte. -/
def byteOf (n : Nat) : Byte := BitVec.ofNat 8 n

/-- no 0, yes 1 (section 10.5.1). -/
def flagByte (b : Bool) : Byte := if b then 1 else 0

/-! ### Updates of State, by unit -/

/-- State with one port replaced. -/
def State.setPort (s : State) (p : PortId) (x : FieldPort) : State := { s with ports := put s.ports p x }

/-- State with the Classifier replaced. -/
def State.setClassifier (s : State) (x : Classifier) : State := { s with classifier := x }

/-- State with the Table Store replaced. -/
def State.setTable (s : State) (x : TableStore) : State := { s with table := x }

/-- State with one condition slot replaced. -/
def State.setCondition (s : State) (i : SlotId) (x : ConditionSlot) : State :=
  { s with conditions := put s.conditions i x }

/-- State with the Level Unit replaced. -/
def State.setLevelUnit (s : State) (x : LevelUnit) : State := { s with levelUnit := x }

/-- State with one level replaced. -/
def State.setLevel (s : State) (l : LevelId) (x : Level) : State :=
  { s with levelUnit := { s.levelUnit with levels := put s.levelUnit.levels l x } }

/-- State with the Service Unit replaced. -/
def State.setService (s : State) (x : ServiceUnit) : State := { s with service := x }

/-- State with one place of the in-service table replaced. -/
def State.setInService (s : State) (l : LevelId) (x : Option ServiceRecord) : State :=
  { s with service := { s.service with inService := put s.service.inService l x } }

/-- State with the Trunk Port replaced. -/
def State.setTrunk (s : State) (x : TrunkPort) : State := { s with trunk := x }

/-- State with the Notice Unit replaced. -/
def State.setNotices (s : State) (x : NoticeUnit) : State := { s with notices := x }

/-- State with the Management Unit replaced. -/
def State.setManagement (s : State) (x : Management) : State := { s with management := x }

/-- A level of the Level Unit. -/
def State.levelAt (s : State) (l : LevelId) : Level := look s.levelUnit.levels l

/-- The record in service at a level (R103). -/
def State.inServiceAt (s : State) (l : LevelId) : Option ServiceRecord := look s.service.inService l

/-! ### Views -/

/-- A receiver that is not DEAD. -/
def Receiver.live : Receiver → Bool
  | .dead => false
  | .hunt => true
  | .inFrame _ => true

/-- A port's state (section 2.1): DISABLED, or UP or DOWN as its receiver shows. -/
def FieldPort.state (port : FieldPort) : PortState :=
  if port.enabled then (if port.rx.live then .up else .down) else .disabled

/-- The trunk link is UP while its receiver is LIVE (R124). -/
def State.linkUp (s : State) : Bool := s.trunk.rx.live

/-- The records pending in all queues (R85). -/
def State.pendingRecords (s : State) : Nat :=
  ((List.finRange 16).map fun l => (s.levelAt l).queue.length).sum

/-- The records in service (R85). -/
def State.recordsInService (s : State) : Nat :=
  (List.finRange 16).countP fun l => (s.inServiceAt l).isSome

/-- The posted records in transmission (R85). -/
def State.recordsInTransmission (s : State) : Nat :=
  if s.levelUnit.inTransmission.isSome then 1 else 0

/-- The records that are not free (R85). -/
def State.usedRecords (s : State) : Nat :=
  s.pendingRecords + s.recordsInService + s.recordsInTransmission

/-- The free records (R85). -/
def State.freeRecords (s : State) : Nat := Config.poolSize - s.usedRecords

/-- A level's place in the ranking: its distance below L − 1, counted downward (R104); 0 is the highest. -/
def rankPlace (lowest level : LevelId) : Fin 16 := lowest - 1 - level

/-- `a` ranks above `b` when L is `lowest` (R104). -/
def ranksAbove (lowest a b : LevelId) : Bool := decide (rankPlace lowest a < rankPlace lowest b)

/-- The ranking, highest first (R104). -/
def rankOrder (lowest : LevelId) : List LevelId := (List.finRange 16).map fun i => lowest - 1 - i

/-- The sub-state of the record in service at a level is RESEND-WAIT. -/
def State.waitsForResend (s : State) (l : LevelId) : Bool :=
  match s.inServiceAt l with
  | some r => r.phase == .resendWait
  | none => false

/-- The resend list, by level: the records in RESEND-WAIT in rank order (R103, R114). -/
def State.resendList (s : State) : List LevelId := (rankOrder s.service.lowest).filter s.waitsForResend

/-- The record in service at level `l` that holds `ticket`, when its sub-state passes a test: what a report of a frame's end
or abort acts on (R110, R115). -/
def State.reported (s : State) (l : LevelId) (ticket : Byte) (inPhase : SubState → Bool) : Option ServiceRecord :=
  match s.inServiceAt l with
  | some r => if r.ticket = ticket && inPhase r.phase then some r else none
  | none => none

/-! ### While RESET_N is held low -/

/-- A command's effect unless RESET_N is held low, when nothing is taken or runs (R155). -/
def whenRunning (s : State) (effect : State → State) : Host.Outcome State Fault Refusal :=
  .next (if s.resetHeld then s else effect s)

end Sys2Proof.Machine
end

