-- ==== Sys2Proof/Machine/Flags.lean ====
section
/-!
DEFINITION. Sticky conditions and the notice causes they and other units hand on (R17, R126, R133), the freezing of a notice
(R134), and NOTICE-ENABLE's effect on the Notice Unit (R135).
-/

namespace Sys2Proof.Machine

/-! ### The Notice Unit -/

/-- The bit of a maskable kind in `enables` (section 10.5). -/
def enableBit : NoticeKind → Option Nat
  | .restarted => none
  | .port => some 0
  | .level => some 1
  | .lapse => some 2
  | .pool => some 3
  | .trunk => some 4

/-- A kind's causes are taken; RESTARTED has no enable (R135). -/
def kindOn (enables : BitVec 5) (kind : NoticeKind) : Bool :=
  match enableBit kind with
  | none => true
  | some i => member enables i

/-- A port number reaches the Notice Unit (R133). -/
def NoticeUnit.portCause (n : NoticeUnit) (p : PortId) : NoticeUnit :=
  if kindOn n.enables .port then { n with port := some (insertMember (n.port.getD 0) p) } else n

/-- A level number reaches the Notice Unit (R133). -/
def NoticeUnit.levelCause (n : NoticeUnit) (l : LevelId) : NoticeUnit :=
  if kindOn n.enables .level then { n with level := some (insertMember (n.level.getD 0) l) } else n

/-- A lapse reaches the Notice Unit (R133). -/
def NoticeUnit.lapseCause (n : NoticeUnit) (ticket : Byte) (l : LevelId) : NoticeUnit :=
  if kindOn n.enables .lapse then
    { n with lapse := some { count := satInc ((n.lapse.map Lapses.count).getD 0), ticket := ticket, level := l } }
  else n

/-- A pool refusal reaches the Notice Unit (R133). -/
def NoticeUnit.poolCause (n : NoticeUnit) : NoticeUnit :=
  if kindOn n.enables .pool then { n with pool := some (satInc (n.pool.getD 0)) } else n

/-- The bit of a trunk condition (R132). -/
def TrunkCondition.bit : TrunkCondition → Nat
  | .framing => 0
  | .check => 1
  | .format => 2
  | .unknownKind => 3
  | .stray => 4
  | .mgmtDrop => 5
  | .linkChange => 6

/-- A trunk condition reaches the Notice Unit (R133). -/
def NoticeUnit.trunkCause (n : NoticeUnit) (c : TrunkCondition) : NoticeUnit :=
  if kindOn n.enables .trunk then { n with trunk := some (insertMember (n.trunk.getD 0) c.bit) } else n

/-- A kind is latched. -/
def NoticeUnit.latched (n : NoticeUnit) : NoticeKind → Bool
  | .restarted => n.restarted.isSome
  | .port => n.port.isSome
  | .level => n.level.isSome
  | .lapse => n.lapse.isSome
  | .pool => n.pool.isSome
  | .trunk => n.trunk.isSome

/-- The order in which latched kinds are granted (R130). -/
def noticeOrder : List NoticeKind := [.restarted, .trunk, .pool, .lapse, .level, .port]

/-- The latched kind that is granted next (R130). -/
def NoticeUnit.nextKind (n : NoticeUnit) : Option NoticeKind := noticeOrder.find? n.latched

/-- The notice class has a frame ready (R130). -/
def NoticeUnit.ready (n : NoticeUnit) : Bool := n.returned.isSome || n.nextKind.isSome

/-- The Notice Unit with one kind's latch and accumulation cleared. -/
def NoticeUnit.clearKind (n : NoticeUnit) : NoticeKind → NoticeUnit
  | .restarted => { n with restarted := none }
  | .port => { n with port := none }
  | .level => { n with level := none }
  | .lapse => { n with lapse := none }
  | .pool => { n with pool := none }
  | .trunk => { n with trunk := none }

/-- Codes of a RESTARTED notice's `cause` (R132). -/
def restartCauseCode : RestartCause → Byte
  | .power => 1
  | .full => 2

/-- The data of a kind's frame from its accumulation, a POOL frame's `free` being read now (R132, R134). -/
def NoticeUnit.accumulated (n : NoticeUnit) (free : Nat) : NoticeKind → List Byte
  | .restarted => (n.restarted.map fun r => [restartCauseCode r.cause, r.tag]).getD [0, 0]
  | .port => [(n.port.getD 0).zeroExtend 8]
  | .level => setBytes (n.level.getD 0)
  | .lapse => (n.lapse.map fun l => [l.count, l.ticket, byteOf l.level]).getD [0, 0, 0]
  | .pool => [n.pool.getD 0, byteOf free]
  | .trunk => [(n.trunk.getD 0).zeroExtend 8]

/-- A kind's accumulation frozen into a NOTICE frame (R134). -/
def NoticeUnit.freeze (n : NoticeUnit) (free : Nat) (kind : NoticeKind) : NoticeFrame :=
  { kind := kind, nseq := n.nseq, data := n.accumulated free kind }

/-- The Notice Unit after the freeze: the counter rises, the kind's latch and accumulation are cleared (R134). -/
def NoticeUnit.afterFreeze (n : NoticeUnit) (kind : NoticeKind) : NoticeUnit :=
  { n.clearKind kind with nseq := n.nseq + 1 }

/-- A value kept while a kind is on, and dropped when it is turned off. -/
def keptIf {α : Type} (on : Bool) (x : Option α) : Option α := if on then x else none

/-- The Notice Unit after NOTICE-ENABLE: a kind that is off has its latch, accumulation and returned notice cancelled
(R135). -/
def NoticeUnit.withEnables (n : NoticeUnit) (enables : BitVec 5) : NoticeUnit :=
  { n with
    enables := enables
    port := keptIf (kindOn enables .port) n.port
    level := keptIf (kindOn enables .level) n.level
    lapse := keptIf (kindOn enables .lapse) n.lapse
    pool := keptIf (kindOn enables .pool) n.pool
    trunk := keptIf (kindOn enables .trunk) n.trunk
    returned := n.returned.filter fun f => kindOn enables f.kind }

/-! ### Sticky conditions -/

/-- The bit of a port condition (section 10.5.1). -/
def PortCondition.bit : PortCondition → Nat
  | .overrun => 0
  | .framing => 1
  | .check => 2
  | .format => 3
  | .releaseLost => 4
  | .linkChange => 5

/-- A cause reaches a sticky condition of a port; a change from clear to set is handed to the Notice Unit when the port's
notices are on (R17). -/
def State.raisePort (s : State) (p : PortId) (c : PortCondition) : State :=
  if member (look s.ports p).conditions c.bit then s
  else
    let set := s.setPort p { look s.ports p with conditions := insertMember (look s.ports p).conditions c.bit }
    if (look s.ports p).noticeEnabled then set.setNotices (s.notices.portCause p) else set

/-- A cause reaches a sticky trunk condition; a change from clear to set is handed to the Notice Unit (R126). -/
def State.raiseTrunk (s : State) (c : TrunkCondition) : State :=
  if member s.trunk.conditions c.bit then s
  else
    (s.setTrunk { s.trunk with conditions := insertMember s.trunk.conditions c.bit }).setNotices
      (s.notices.trunkCause c)

/-- A stray completion is reported to the Trunk Port (R119, R126). -/
def State.raiseStray (s : State) : State :=
  (s.setTrunk { s.trunk with strays := satInc s.trunk.strays }).raiseTrunk .stray

end Sys2Proof.Machine
end

