-- ==== Sys2Proof/Machine/Levels.lean ====
section
/-!
DEFINITION. The Level Unit: release requests (R19, R94), admission (R90 to R93), the abort return (R96); and the Service Unit's
retire (R116), completions (R117 to R119), tickets (R109) and candidates (R107).
-/

namespace Sys2Proof.Machine

/-! ### Release requests -/

/-- The port of a requester; INTERNAL has none. -/
def portOf (r : Requester) : Option PortId := if h : r.val < 6 then some ⟨r.val, h⟩ else none

/-- A release request is routed by its origin (R19). -/
def State.requestRelease (s : State) (origin : Requester) (q : ReleaseRequest) : State :=
  match portOf origin with
  | none => s
  | some p =>
    if (look s.ports p).enabled = false then s
    else if (look s.ports p).releases.length < Config.releaseCapacity then
      s.setPort p { look s.ports p with releases := (look s.ports p).releases ++ [q] }
    else s.raisePort p .releaseLost

/-- The release request that reports on a record (R94, R116). -/
def releaseOf (r : Record) (outcome : ReleaseOutcome) : ReleaseRequest :=
  { node := r.node, code := r.code, seq := r.seq, outcome := outcome }

/-- The RELEASE request of a held record or request; a posted one causes none (R94). -/
def State.releaseIfHeld (s : State) (r : Record) (outcome : ReleaseOutcome) : State :=
  match r.kind with
  | .held => s.requestRelease r.origin (releaseOf r outcome)
  | .posted => s

/-! ### Admission -/

/-- A level with its high-water count raised to the queue length, if that is greater (R87). -/
def Level.raiseHighWater (level : Level) : Level :=
  if level.counts.highWater.toNat < level.queue.length then
    { level with counts := { level.counts with highWater := BitVec.ofNat 16 level.queue.length } }
  else level

/-- One drop at a level: the dropped count rises and the level's number is handed to the Notice Unit (R92, R96). -/
def State.countDrop (s : State) (l : LevelId) : State :=
  (s.setLevel l { s.levelAt l with
    counts := { (s.levelAt l).counts with dropped := satInc (s.levelAt l).counts.dropped } }).setNotices
      (s.notices.levelCause l)

/-- A pending record that a request may merge into (R90). -/
def coalescesWith (r q : Record) : Bool :=
  r.kind == .posted && r.mayCoalesce && r.origin == q.origin && r.node == q.node && r.code == q.code && r.cond == q.cond

/-- The record after the merge: repeat raised, seq and payload replaced (R90). -/
def mergedInto (r q : Record) : Record :=
  { r with repeats := satInc r.repeats, seq := q.seq, payload := q.payload }

/-- The queue with the request merged into the first record, from the head, that qualifies (R90). -/
def mergeFirst (q : Record) : List Record → Option (List Record)
  | [] => none
  | r :: rs => if coalescesWith r q then some (mergedInto r q :: rs) else (mergeFirst q rs).map (r :: ·)

/-- The coalesce test applies: a posted request that may coalesce, at a level whose `coalesce` is on (R90). -/
def State.mayCoalesceNow (s : State) (q : Record) : Bool :=
  q.kind == .posted && q.mayCoalesce && (s.levelAt q.level).settings.coalesce

/-- The coalesce test (R90). -/
def State.coalesce (s : State) (q : Record) : Option State :=
  if s.mayCoalesceNow q then
    (mergeFirst q (s.levelAt q.level).queue).map fun queue => s.setLevel q.level { s.levelAt q.level with queue := queue }
  else none

/-- A held record that a held request would duplicate (R91). -/
def duplicates (r q : Record) : Bool :=
  r.kind == .held && r.origin == q.origin && r.node == q.node && r.code == q.code && r.seq == q.seq

/-- The duplicate test (R91): every held record pending in any queue or in service. -/
def State.isDuplicate (s : State) (q : Record) : Bool :=
  q.kind == .held && (List.finRange 16).any fun l =>
    (s.levelAt l).queue.any (duplicates · q) || (s.inServiceAt l).any fun r => duplicates r.record q

/-- A request turned away for lack of a free record (R93). -/
def State.refusePool (s : State) (q : Record) : State :=
  ((s.setLevelUnit { s.levelUnit with refusals := satInc s.levelUnit.refusals }).setNotices s.notices.poolCause).releaseIfHeld
    q .refused

/-- A record appended at the tail of its level's queue (R93). -/
def State.enqueue (s : State) (q : Record) : State :=
  s.setLevel q.level (Level.raiseHighWater { s.levelAt q.level with queue := (s.levelAt q.level).queue ++ [q] })

/-- The low-water mark lowered to the number of free records, if that is smaller (R93). -/
def State.lowerMark (s : State) : State :=
  if s.freeRecords < s.levelUnit.lowWater.toNat then
    s.setLevelUnit { s.levelUnit with lowWater := byteOf s.freeRecords }
  else s

/-- The allocation test (R93). -/
def State.allocate (s : State) (q : Record) : State × ActionOutcome :=
  if s.freeRecords = 0 then (s.refusePool q, .refusedPool) else ((s.enqueue q).lowerMark, .queued)

/-- The oldest pending record of a level displaced under DROP-OLD (R92). -/
def State.displaceHead (s : State) (l : LevelId) : State :=
  match (s.levelAt l).queue with
  | [] => s
  | r :: rs => ((s.setLevel l { s.levelAt l with queue := rs }).countDrop l).releaseIfHeld r .refused

/-- A level with room for one more pending record (R92). -/
def State.hasRoom (s : State) (l : LevelId) : Bool :=
  decide ((s.levelAt l).queue.length < (s.levelAt l).settings.limit.toNat)

/-- The room test, which ends in the allocation unless DROP-NEW turns the request away (R92). -/
def State.admitToRoom (s : State) (q : Record) : State × ActionOutcome :=
  if s.hasRoom q.level then s.allocate q
  else
    match (s.levelAt q.level).settings.policy with
    | .dropNew => ((s.countDrop q.level).releaseIfHeld q .refused, .dropped)
    | .dropOld => (s.displaceHead q.level).allocate q

/-- The decision on an admission request: coalesce, duplicate, room, allocate (R90). -/
def State.admission (s : State) (q : Record) : State × ActionOutcome :=
  match s.coalesce q with
  | some s' => (s', .coalesced)
  | none => if s.isDuplicate q then (s, .duplicate) else s.admitToRoom q

/-! ### Abort return -/

/-- A record put back at the head of its level's queue; the tail record is dropped if the limit is exceeded (R96). -/
def State.abortReturn (s : State) (r : Record) : State :=
  if (s.levelAt r.level).settings.limit.toNat < (s.levelAt r.level).queue.length + 1 then
    (((s.setLevel r.level (Level.raiseHighWater
      { s.levelAt r.level with queue := (r :: (s.levelAt r.level).queue).dropLast })).countDrop r.level).releaseIfHeld
        ((r :: (s.levelAt r.level).queue).getLastD r) .refused)
  else
    s.setLevel r.level (Level.raiseHighWater { s.levelAt r.level with queue := r :: (s.levelAt r.level).queue })

/-! ### Retire and completions -/

/-- A level is served: it becomes L in ROTATING mode (R105). -/
def State.serve (s : State) (l : LevelId) : State :=
  match s.service.mode with
  | .fixed => s
  | .rotating => s.setService { s.service with lowest := l }

/-- The RELEASE outcome of a retire (R116). -/
def releaseOutcomeOf : RetireOutcome → ReleaseOutcome
  | .done => .done
  | .reject => .refused
  | .lapsed => .lapsed
  | .flushed => .flushed

/-- The count a retire raises (R116). -/
def LevelCounts.countRetire (c : LevelCounts) : RetireOutcome → LevelCounts
  | .done => { c with done := satInc c.done }
  | .reject => { c with rejected := satInc c.rejected }
  | .lapsed => { c with lapsed := satInc c.lapsed }
  | .flushed => { c with flushed := satInc c.flushed }

/-- The level's count for a retire raised by one. -/
def State.countRetire (s : State) (l : LevelId) (o : RetireOutcome) : State :=
  s.setLevel l { s.levelAt l with counts := (s.levelAt l).counts.countRetire o }

/-- A lapse is reported to the Notice Unit; another outcome is not (R116). -/
def State.reportLapse (s : State) (l : LevelId) (ticket : Byte) : RetireOutcome → State
  | .lapsed => s.setNotices (s.notices.lapseCause ticket l)
  | .done => s
  | .reject => s
  | .flushed => s

/-- A record in service is retired (R116); its timer and its place on the resend list go with it. -/
def State.retire (s : State) (l : LevelId) (r : ServiceRecord) (o : RetireOutcome) : State :=
  (((((s.setInService l none).countRetire l o).requestRelease r.record.origin (releaseOf r.record (releaseOutcomeOf o))
    ).reportLapse l r.ticket o).serve l)

/-- The level whose record in service holds a ticket (R117). -/
def State.holderOf (s : State) (ticket : Byte) : Option LevelId :=
  (List.finRange 16).find? fun l => (s.inServiceAt l).any fun r => r.ticket == ticket

/-- The level in service that ranks highest (R118). -/
def State.topInService (s : State) : Option LevelId :=
  (rankOrder s.service.lowest).find? fun l => (s.inServiceAt l).isSome

/-- The record in service at a level, if any, is retired; without one the completion is stray (R119). -/
def State.retireAt (s : State) (l : Option LevelId) (o : RetireOutcome) : State :=
  match l with
  | none => s.raiseStray
  | some l =>
    match s.inServiceAt l with
    | some r => s.retire l r o
    | none => s.raiseStray

/-- A COMPLETE is taken (R117). -/
def State.takeComplete (s : State) (ticket : Byte) (o : RetireOutcome) : State := s.retireAt (s.holderOf ticket) o

/-- A COMPLETE-TOP is taken (R118). -/
def State.takeCompleteTop (s : State) (o : RetireOutcome) : State := s.retireAt s.topInService o

/-! ### Tickets and candidates -/

/-- The ticket after another, with 255 followed by 1 (R109). -/
def nextTicket (t : Byte) : Byte := if t = 255 then 1 else t + 1

/-- A record in service holds the ticket. -/
def State.ticketInUse (s : State) (t : Byte) : Bool := (s.holderOf t).isSome

/-- The first ticket from `t` on that is not in use, within `more` further tries (R109). -/
def findTicket (inUse : Byte → Bool) : Nat → Byte → Byte
  | 0, t => t
  | more + 1, t => if inUse t then findTicket inUse more (nextTicket t) else t

/-- The ticket of the next held grant, found within seventeen tries (R109). -/
def State.newTicket (s : State) : Byte := findTicket s.ticketInUse 16 (nextTicket s.service.ticketCounter)

/-- The head of a level's queue may go: posted, or held at a level not in service (R107). -/
def State.headMayGo (s : State) (l : LevelId) : Bool :=
  match (s.levelAt l).queue with
  | [] => false
  | r :: _ => r.kind == .posted || (s.inServiceAt l).isNone

/-- The level ranks above every level in service (R107). -/
def State.ranksAboveService (s : State) (l : LevelId) : Bool :=
  (List.finRange 16).all fun other => (s.inServiceAt other).isNone || ranksAbove s.service.lowest l other

/-- A level is a candidate for dispatch (R107). -/
def State.candidate (s : State) (l : LevelId) : Bool :=
  !(s.levelAt l).masked && s.headMayGo l && (s.service.nesting == .flat || s.ranksAboveService l)

/-- The candidate that ranks highest (R108). -/
def State.topCandidate (s : State) : Option LevelId := (rankOrder s.service.lowest).find? s.candidate

end Sys2Proof.Machine
end

