-- ==== Sys2Proof/Machine/Link.lean ====
section
/-!
DEFINITION. Chapter 1: the check, the line receiver with its verdicts, and the byte layouts of the frames the part takes and
sends.
-/

namespace Sys2Proof.Machine

/-! ### The check (R5) -/

/-- One of the eight steps for a byte. -/
def crcStep (r : Half) : Half := if r.msb then (r <<< 1) ^^^ 0x2F15 else r <<< 1

/-- The check register after one more byte. -/
def crcByte (r : Half) (b : Byte) : Half := Nat.repeat crcStep 8 (r ^^^ (b ++ (0 : Byte)))

/-- The check register after a run of bytes. -/
def crcRun (r : Half) (bytes : List Byte) : Half := bytes.foldl crcByte r

/-- The check of a frame whose covered bytes are `body`. -/
def frameCheck (body : List Byte) : Half := crcRun 0xFFFF body

/-- A frame's bytes: what the check covers, then the check, high byte first. -/
def closeFrame (body : List Byte) : List Byte := body ++ numberBytes (frameCheck body)

/-- A frame on the line: start marker, its bytes, end marker (R1). -/
def lineSymbols (frame : List Byte) : List Symbol := .start :: (frame.map .data ++ [.endMarker])

/-! ### Kinds and format (R7 to R9) -/

/-- Code of EVENT. -/
def kindEvent : Byte := 0x51
/-- Code of RELEASE. -/
def kindRelease : Byte := 0x52
/-- Code of UP-EVENT. -/
def kindUpEvent : Byte := 0x61
/-- Code of COMPLETE. -/
def kindComplete : Byte := 0x62
/-- Code of COMPLETE-TOP. -/
def kindCompleteTop : Byte := 0x63
/-- Code of PAUSE. -/
def kindPause : Byte := 0x64
/-- Code of RESUME. -/
def kindResume : Byte := 0x65
/-- Code of REQUEST. -/
def kindRequest : Byte := 0x71
/-- Code of REPLY. -/
def kindReply : Byte := 0x72
/-- Code of NOTICE. -/
def kindNotice : Byte := 0x73

/-- The kinds a receiver accepts (R7). -/
def acceptedKinds : LinkKind → List Byte
  | .field => [kindEvent]
  | .trunk => [kindComplete, kindCompleteTop, kindPause, kindResume, kindRequest]

/-- The fixed part of an accepted kind (R8). -/
def fixedPart (kind : Byte) : Nat :=
  if kind = kindEvent then 8
  else if kind = kindRequest then 6
  else if kind = kindComplete then 5
  else if kind = kindResume then 3
  else 4

/-- The value of the length field; 0 for a kind that has none (R8). -/
def lengthField (kind : Byte) (bytes : List Byte) : Nat :=
  if kind = kindEvent then (bytes.getD 5 0).toNat
  else if kind = kindRequest then (bytes.getD 3 0).toNat
  else 0

/-- The maximum of the length field (R8). -/
def lengthMaximum (kind : Byte) : Nat :=
  if kind = kindEvent then 8 else if kind = kindRequest then 24 else 0

/-- The length test on a frame of `count` bytes (R8). -/
def lengthOk (kind : Byte) (bytes : List Byte) (count : Nat) : Bool :=
  decide (fixedPart kind ≤ count) && decide (lengthField kind bytes ≤ lengthMaximum kind) &&
    decide (count = fixedPart kind + lengthField kind bytes)

/-- `cond` from its two bits; 3 is illegal (R9). -/
def condOfBits (b : BitVec 2) : Option Cond :=
  if b = 0 then some .pulse else if b = 1 then some .assert else if b = 2 then some .clear else none

/-- The `cond` bits, 7 and 6, of a cond/seq byte. -/
def condBits (b : Byte) : BitVec 2 := b.extractLsb' 6 2

/-- The `seq` bits, 3 to 0, of a cond/seq byte. -/
def seqBits (b : Byte) : BitVec 4 := b.extractLsb' 0 4

/-- The outcome of a completion: DONE 1, REJECT 2 (R9). -/
def completionOutcome (b : Byte) : Option RetireOutcome :=
  if b = 1 then some .done else if b = 2 then some .reject else none

/-- The test for illegal field values (R9). -/
def valuesOk (kind : Byte) (bytes : List Byte) : Bool :=
  if kind = kindEvent then (condOfBits (condBits (bytes.getD 4 0))).isSome
  else if kind = kindComplete then bytes.getD 1 0 != 0 && (completionOutcome (bytes.getD 2 0)).isSome
  else if kind = kindCompleteTop then (completionOutcome (bytes.getD 1 0)).isSome
  else true

/-! ### The line receiver (R3, R4, R6) -/

/-- How many bytes of a frame a receiver stores (R3). -/
def storeLimit : LinkKind → Nat
  | .field => 16
  | .trunk => 30

/-- A frame with no bytes. -/
def RxFrame.empty : RxFrame := { stored := [], count := 0, crc := 0xFFFF }

/-- A frame with one byte more: stored if there is room, counted and checked in any case (R3). -/
def RxFrame.push (k : LinkKind) (f : RxFrame) (b : Byte) : RxFrame where
  stored := if f.stored.length < storeLimit k then f.stored ++ [b] else f.stored
  count := f.count + 1
  crc := crcByte f.crc b

/-- The verdict on a frame that an end marker completes; the check is right when the register over all bytes is 0 (R4, R6). -/
def frameVerdict (k : LinkKind) (f : RxFrame) : Verdict :=
  if f.count < 3 then .framing
  else if f.crc ≠ 0 then .check
  else if f.stored.getD 0 0 ∉ acceptedKinds k then .unknownKind
  else if lengthOk (f.stored.getD 0 0) f.stored f.count = false then .format
  else if valuesOk (f.stored.getD 0 0) f.stored = false then .format
  else .valid f.stored

/-- A receiver's response to one symbol, with the verdict it hands over (R3). -/
def Receiver.take (k : LinkKind) : Receiver → Symbol → Receiver × Option Verdict
  | .dead, _ => (.dead, none)
  | .hunt, .start => (.inFrame RxFrame.empty, none)
  | .hunt, _ => (.hunt, none)
  | .inFrame _, .start => (.inFrame RxFrame.empty, some .framing)
  | .inFrame f, .data b => (.inFrame (f.push k b), none)
  | .inFrame f, .idle => (.inFrame f, none)
  | .inFrame f, .endMarker => (.hunt, some (frameVerdict k f))
  | .inFrame _, .abort => (.hunt, some .framing)
  | .inFrame _, .violation => (.hunt, some .framing)

/-- A receiver's response to a run of symbols, with the verdicts in the order it hands them over. -/
def Receiver.run (k : LinkKind) : Receiver → List Symbol → Receiver × List Verdict
  | r, [] => (r, [])
  | r, x :: xs =>
    let now := r.take k x
    let later := Receiver.run k now.1 xs
    (later.1, now.2.toList ++ later.2)

/-- The receiver after its line goes dead, and the verdict on the frame that this cuts (R3). -/
def Receiver.goDead : Receiver → Receiver × Option Verdict
  | .inFrame _ => (.dead, some .framing)
  | .hunt => (.dead, none)
  | .dead => (.dead, none)

/-! ### Frames the part receives (section 1.7) -/

/-- The event of a VALID EVENT frame. -/
def parseEvent (bytes : List Byte) : Option Event :=
  (condOfBits (condBits (bytes.getD 4 0))).map fun cond =>
    { node := bytes.getD 1 0
      code := joinBytes (bytes.getD 2 0) (bytes.getD 3 0)
      cond := cond
      seq := seqBits (bytes.getD 4 0)
      payload := (bytes.drop 6).take (bytes.getD 5 0).toNat }

/-- The covered bytes of the EVENT frame with these fields. -/
def eventBody (node : Byte) (code : Half) (cond spare : BitVec 2) (seq : BitVec 4) (payload : List Byte) : List Byte :=
  [kindEvent, node] ++ numberBytes code ++ [cond ++ spare ++ seq, byteOf payload.length] ++ payload

/-- The covered bytes of a COMPLETE. -/
def completeBody (ticket outcome : Byte) : List Byte := [kindComplete, ticket, outcome]

/-- The covered bytes of a COMPLETE-TOP. -/
def completeTopBody (outcome : Byte) : List Byte := [kindCompleteTop, outcome]

/-- The covered bytes of a PAUSE. -/
def pauseBody (duration : Byte) : List Byte := [kindPause, duration]

/-- The covered bytes of a RESUME. -/
def resumeBody : List Byte := [kindResume]

/-- The covered bytes of a REQUEST. -/
def requestBody (tag op : Byte) (operands : List Byte) : List Byte :=
  [kindRequest, tag, op, byteOf operands.length] ++ operands

/-! ### Frames the part sends (R13, section 1.7) -/

/-- Codes of `cond`. -/
def condCode : Cond → BitVec 2
  | .pulse => 0
  | .assert => 1
  | .clear => 2

/-- A cond/seq byte, bits 5 and 4 sent as 0. -/
def condSeqByte (cond : Cond) (seq : BitVec 4) : Byte := condCode cond ++ (0 : BitVec 2) ++ seq

/-- Codes of a RELEASE's `outcome`. -/
def releaseOutcomeCode : ReleaseOutcome → BitVec 4
  | .done => 1
  | .refused => 2
  | .lapsed => 3
  | .flushed => 4

/-- A RELEASE frame. -/
def releaseFrame (r : ReleaseRequest) : List Byte :=
  closeFrame ([kindRelease, r.node] ++ numberBytes r.code ++ [releaseOutcomeCode r.outcome ++ r.seq])

/-- `level` as four bits. -/
def levelBits (l : LevelId) : BitVec 4 := BitVec.ofNat 4 l

/-- One bit. -/
def bitOf (b : Bool) : BitVec 1 := if b then 1 else 0

/-- An UP-EVENT frame; `retry` is 1 when `attempt` is 2 or more (R13). -/
def upEventFrame (r : Record) (ticket attempt : Byte) : List Byte :=
  closeFrame
    ([kindUpEvent,
      (0 : BitVec 2) ++ bitOf (decide (2 ≤ attempt.toNat)) ++ bitOf (r.kind == .held) ++ levelBits r.level,
      ticket, attempt, byteOf r.origin, r.node] ++ numberBytes r.code ++
      [condSeqByte r.cond r.seq, r.repeats, r.gen, byteOf r.payload.length] ++ r.payload)

/-- Codes of the statuses (section 10.4). -/
def statusCode : Status → Byte
  | .ok => 0
  | .illegal => 1
  | .busy => 2
  | .conflict => 3
  | .unsupported => 4
  | .malformed => 5
  | .queueFull => 6

/-- A REPLY frame. -/
def replyFrame (r : Reply) : List Byte :=
  closeFrame ([kindReply, r.tag, r.op, statusCode r.status, byteOf r.data.length] ++ r.data)

/-- Codes of the notice kinds (R132). -/
def noticeKindCode : NoticeKind → Byte
  | .restarted => 1
  | .port => 2
  | .level => 3
  | .lapse => 4
  | .pool => 5
  | .trunk => 6

/-- A NOTICE frame. -/
def noticeFrame (n : NoticeFrame) : List Byte :=
  closeFrame ([kindNotice, noticeKindCode n.kind, n.nseq, byteOf n.data.length] ++ n.data)

end Sys2Proof.Machine
end

