-- ==== Sys2Proof/Machine/Operands.lean ====
section
/-!
DEFINITION. The operand and data codes of the management operations (section 10.5): operation codes, code tables, the
definition of an entry as 11 bytes with the checks of R41, and the operands of INJECT.
-/

namespace Sys2Proof.Machine

/-! ### Operation codes (section 10.5) -/

/-- IDENT. -/
def opIdent : Byte := 0x01
/-- READ-ENTRY. -/
def opReadEntry : Byte := 0x02
/-- WRITE-ENTRY. -/
def opWriteEntry : Byte := 0x03
/-- CLEAR-ENTRY. -/
def opClearEntry : Byte := 0x04
/-- WRITE-DEFAULT. -/
def opWriteDefault : Byte := 0x05
/-- COPY-BANK. -/
def opCopyBank : Byte := 0x06
/-- SWAP-BANKS. -/
def opSwapBanks : Byte := 0x07
/-- READ-LEVEL. -/
def opReadLevel : Byte := 0x08
/-- WRITE-LEVEL. -/
def opWriteLevel : Byte := 0x09
/-- SET-ORDER. -/
def opSetOrder : Byte := 0x0A
/-- MASK-LEVELS. -/
def opMaskLevels : Byte := 0x0B
/-- FLUSH-LEVEL. -/
def opFlushLevel : Byte := 0x0C
/-- READ-PORT. -/
def opReadPort : Byte := 0x0D
/-- WRITE-PORT. -/
def opWritePort : Byte := 0x0E
/-- READ-TRUNK. -/
def opReadTrunk : Byte := 0x0F
/-- READ-CONDITION. -/
def opReadCondition : Byte := 0x10
/-- CLEAR-CONDITION. -/
def opClearCondition : Byte := 0x11
/-- INJECT. -/
def opInject : Byte := 0x12
/-- READ-POOL. -/
def opReadPool : Byte := 0x13
/-- NOTICE-ENABLE. -/
def opNoticeEnable : Byte := 0x14
/-- RESET. -/
def opReset : Byte := 0x15

/-- An `op` that names no operation: 00h or above 15h (R144). -/
def opUnknown (op : Byte) : Bool := op == 0 || decide (0x15 < op.toNat)

/-! ### Code tables (section 10.5.1) -/

/-- An operand byte. -/
def operand (ops : List Byte) (i : Nat) : Byte := ops.getD i 0

/-- A number below a bound, from an operand byte. -/
def boundedOperand (n : Nat) (b : Byte) : Option (Fin n) := if h : b.toNat < n then some ⟨b.toNat, h⟩ else none

/-- no 0, yes 1. -/
def flagOperand (b : Byte) : Option Bool := if b = 0 then some false else if b = 1 then some true else none

/-- Codes of `bank`. -/
def bankCode : BankId → Byte
  | .a => 0
  | .b => 1

/-- `bank` from its code. -/
def bankOperand (b : Byte) : Option BankId := if b = 0 then some .a else if b = 1 then some .b else none

/-- Codes of an entry's `action`. -/
def actionCode : EntryAction → Byte
  | .forward _ => 1
  | .hold _ => 2
  | .track _ _ => 3
  | .count => 4
  | .discard => 5

/-- Codes of a default record's `action`. -/
def defaultActionCode : DefaultAction → Byte
  | .forward => 1
  | .count => 4
  | .discard => 5

/-- `level` in a definition: the value, or FFh for absent. -/
def actionLevelCode : EntryAction → Byte
  | .forward l => byteOf l
  | .hold l => byteOf l
  | .track l _ => byteOf l
  | .count => 0xFF
  | .discard => 0xFF

/-- `slot` in a definition: the value, or FFh for absent. -/
def actionSlotCode : EntryAction → Byte
  | .track _ i => byteOf i
  | .forward _ => 0xFF
  | .hold _ => 0xFF
  | .count => 0xFF
  | .discard => 0xFF

/-- Codes of `policy`. -/
def policyCode : Policy → Byte
  | .dropNew => 1
  | .dropOld => 2

/-- `policy` from its code. -/
def policyOperand (b : Byte) : Option Policy := if b = 1 then some .dropNew else if b = 2 then some .dropOld else none

/-- Codes of `mode`. -/
def modeCode : PriorityMode → Byte
  | .fixed => 1
  | .rotating => 2

/-- `mode` from its code. -/
def modeOperand (b : Byte) : Option PriorityMode := if b = 1 then some .fixed else if b = 2 then some .rotating else none

/-- Codes of `nesting`. -/
def nestingCode : Nesting → Byte
  | .nested => 1
  | .flat => 2

/-- `nesting` from its code. -/
def nestingOperand (b : Byte) : Option Nesting := if b = 1 then some .nested else if b = 2 then some .flat else none

/-- Codes of a port's `state`. -/
def portStateCode : PortState → Byte
  | .disabled => 0
  | .down => 1
  | .up => 2

/-- Codes of `pause`. -/
def pauseCode : PauseState → Byte
  | .running => 0
  | .paused _ => 1

/-- Codes of a condition slot's `state`. -/
def trackStateCode : TrackState → Byte
  | .unknown => 0
  | .asserted => 1
  | .cleared => 2

/-- Codes of the service sub-state. -/
def subStateCode : SubState → Byte
  | .dispatching => 1
  | .awaiting _ => 2
  | .resendWait => 3
  | .resending => 4

/-- Codes of INJECT's `outcome`. -/
def outcomeCode : ActionOutcome → Byte
  | .queued => 1
  | .coalesced => 2
  | .duplicate => 3
  | .dropped => 4
  | .refusedPool => 5
  | .absorbed => 6
  | .counted => 7
  | .discarded => 8

/-- Codes of `decider`: the index, or FFh for the default record. -/
def deciderCode : Option EntryId → Byte
  | some i => byteOf i
  | none => 0xFF

/-! ### Definitions (R41, section 10.5.1) -/

/-- The item READ-ENTRY names: an entry, or 64 for the default record. -/
inductive ItemName where
  | entry (index : EntryId)
  | defaultRecord
deriving DecidableEq, Repr

/-- `item` of READ-ENTRY. -/
def itemOperand (b : Byte) : Option ItemName :=
  if b = 64 then some .defaultRecord else (boundedOperand 64 b).map .entry

/-- The code of an item. -/
def itemCode : ItemName → Byte
  | .entry i => byteOf i
  | .defaultRecord => 64

/-- The action uses a level: FORWARD, HOLD or TRACK. -/
def usesLevel (action : Byte) : Bool := action == 1 || action == 2 || action == 3

/-- The first failed check of a WRITE-ENTRY, in the order of R41's table; operands: index, ports, node_value, node_mask,
code_value, code_mask, conds, action, level, slot. -/
def writeEntryReason (ops : List Byte) : Option Byte :=
  if 63 < (operand ops 0).toNat then some 1
  else if operand ops 9 = 0 ∨ 5 < (operand ops 9).toNat then some 2
  else if 127 < (operand ops 1).toNat then some 4
  else if 7 < (operand ops 8).toNat then some 5
  else if operand ops 2 &&& ~~~(operand ops 3) ≠ 0 ∨
      joinBytes (operand ops 4) (operand ops 5) &&& ~~~(joinBytes (operand ops 6) (operand ops 7)) ≠ 0 then some 6
  else if usesLevel (operand ops 9) = true ∧ 15 < (operand ops 10).toNat then some 7
  else if operand ops 9 = 3 ∧ 31 < (operand ops 11).toNat then some 8
  else if operand ops 9 = 3 ∧ member (operand ops 8) 0 = true then some 9
  else none

/-- The first failed check of a WRITE-DEFAULT; operands: action, level (R41, R146). -/
def writeDefaultReason (ops : List Byte) : Option Byte :=
  if operand ops 0 = 0 ∨ 5 < (operand ops 0).toNat then some 2
  else if operand ops 0 = 2 ∨ operand ops 0 = 3 then some 3
  else if operand ops 0 = 1 ∧ 15 < (operand ops 1).toNat then some 7
  else none

/-- A level from a byte that has passed its check. -/
def levelOf (b : Byte) : LevelId := Fin.ofNat 16 b.toNat

/-- A slot from a byte that has passed its check. -/
def slotOf (b : Byte) : SlotId := Fin.ofNat 32 b.toNat

/-- An entry's index from a byte that has passed its check. -/
def entryOf (b : Byte) : EntryId := Fin.ofNat 64 b.toNat

/-- The action of a legal definition, with the optional fields R31 keeps. -/
def actionOf (action level slot : Byte) : EntryAction :=
  if action = 1 then .forward (levelOf level)
  else if action = 2 then .hold (levelOf level)
  else if action = 3 then .track (levelOf level) (slotOf slot)
  else if action = 4 then .count
  else .discard

/-- The definition a legal WRITE-ENTRY carries (R42). -/
def definitionOf (ops : List Byte) : Definition where
  ports := (operand ops 1).truncate 7
  nodeValue := operand ops 2
  nodeMask := operand ops 3
  codeValue := joinBytes (operand ops 4) (operand ops 5)
  codeMask := joinBytes (operand ops 6) (operand ops 7)
  conds := (operand ops 8).truncate 3
  action := actionOf (operand ops 9) (operand ops 10) (operand ops 11)

/-- The default record a legal WRITE-DEFAULT stores: level 0 when the action does not use one (R32, R42). -/
def defaultRecordOf (ops : List Byte) : DefaultRecord :=
  if operand ops 0 = 1 then { action := .forward, level := levelOf (operand ops 1), hits := 0 }
  else if operand ops 0 = 4 then { action := .count, level := 0, hits := 0 }
  else { action := .discard, level := 0, hits := 0 }

/-- A valid entry's definition as READ-ENTRY returns it (section 10.5.1). -/
def definitionBytes (d : Definition) : List Byte :=
  [1, d.ports.zeroExtend 8, d.nodeValue, d.nodeMask] ++ numberBytes d.codeValue ++ numberBytes d.codeMask ++
    [d.conds.zeroExtend 8, actionCode d.action, actionLevelCode d.action, actionSlotCode d.action]

/-- The cleared form of an invalid entry as READ-ENTRY returns it (R30). -/
def clearedBytes : List Byte := [0, 0, 0, 0, 0, 0, 0, 0, 0, 5, 0xFF, 0xFF]

/-- An entry, valid or not, as READ-ENTRY returns it, with its hits (R74). -/
def entryBytes : Option Entry → List Byte
  | some e => definitionBytes e.definition ++ numberBytes e.hits
  | none => clearedBytes ++ [0, 0]

/-- The default record as READ-ENTRY returns it, with its hits (section 10.5.1). -/
def defaultRecordBytes (d : DefaultRecord) : List Byte :=
  [1, 0, 0, 0, 0, 0, 0, 0, 0, defaultActionCode d.action, byteOf d.level, 0xFF] ++ numberBytes d.hits

/-! ### Other operands -/

/-- The settings a WRITE-LEVEL gives after its level: limit, policy, coalesce, timeout, retries (R98, R147). -/
def settingsOperand (ops : List Byte) : Option LevelSettings :=
  if operand ops 1 = 0 ∨ 32 < (operand ops 1).toNat ∨ 7 < (operand ops 5).toNat then none
  else
    (policyOperand (operand ops 2)).bind fun policy =>
      (flagOperand (operand ops 3)).map fun coalesce =>
        { limit := operand ops 1, policy := policy, coalesce := coalesce, timeout := operand ops 4,
          retries := operand ops 5 }

/-- The length test of INJECT (R149). -/
def injectLengthOk (ops : List Byte) : Bool :=
  decide (6 ≤ ops.length) && decide ((operand ops 5).toNat + 6 = ops.length) && decide ((operand ops 5).toNat ≤ 8)

/-- The synthetic event of an INJECT, absent when `cond` or `seq` is out of range (R149). -/
def injectedEvent (ops : List Byte) : Option Event :=
  if 15 < (operand ops 4).toNat ∨ 2 < (operand ops 3).toNat then none
  else
    (condOfBits ((operand ops 3).truncate 2)).map fun cond =>
      { node := operand ops 0
        code := joinBytes (operand ops 1) (operand ops 2)
        cond := cond
        seq := (operand ops 4).truncate 4
        payload := ops.drop 6 }

/-- The set of a MASK-LEVELS operand, low byte first (section 10.5). -/
def maskOperand (ops : List Byte) : BitVec 16 := joinBytes (operand ops 1) (operand ops 0)

end Sys2Proof.Machine
end

