-- ==== Sys2Proof/Machine/Replies.lean ====
section
/-!
DEFINITION. The Management Unit's shared operations: acceptance and refusal of a request (R140, R141), replies (R142, R143), the
execution of the head request with the order of tests (R144); and the landing of a pending swap (R80), which produces a reply.
-/

namespace Sys2Proof.Machine

/-! ### Replies -/

/-- A REPLY is produced into its reply slot and joins the reply class (R142, R143). -/
def State.produceReply (s : State) (slot : ReplySlotId) (reply : Reply) : State :=
  (s.setManagement { s.management with
    slots := put s.management.slots slot (some { tag := reply.tag, op := reply.op, progress := .replyReady }) }).setTrunk
      { s.trunk with replies := s.trunk.replies ++ [{ source := .reply slot, reply := reply }] }

/-- A request is answered at its execution (R142). -/
def State.answer (s : State) (q : QueuedRequest) (status : Status) (data : List Byte) : State :=
  s.produceReply q.slot { tag := q.tag, op := q.op, status := status, data := data }

/-- A request whose work ends later becomes AWAITING-COMPLETION (R142). -/
def State.defer (s : State) (q : QueuedRequest) : State :=
  s.setManagement { s.management with
    slots := put s.management.slots q.slot (some { tag := q.tag, op := q.op, progress := .awaitingCompletion }) }

/-- What a deferred request's reply needs (R51, R77, R79). -/
def QueuedRequest.later (q : QueuedRequest) : PendingReply := { slot := q.slot, tag := q.tag }

/-! ### Acceptance -/

/-- A free reply slot. -/
def Management.freeSlot (m : Management) : Option ReplySlotId :=
  (List.finRange 4).find? fun i => (look m.slots i).isNone

/-- A free refusal slot. -/
def Management.freeRefusal (m : Management) : Option RefusalSlotId :=
  (List.finRange 2).find? fun i => (look m.refusals i).isNone

/-- A request accepted into a free slot joins the request queue (R140). -/
def State.accept (s : State) (slot : ReplySlotId) (tag op : Byte) (operands : List Byte) : State :=
  s.setManagement { s.management with
    slots := put s.management.slots slot (some { tag := tag, op := op, progress := .queued })
    queue := s.management.queue ++ [{ slot := slot, tag := tag, op := op, operands := operands }] }

/-- A request refused is answered QUEUE-FULL from a free refusal slot, or else discarded with MGMT-DROP (R141). -/
def State.refuse (s : State) (tag op : Byte) : State :=
  match s.management.freeRefusal with
  | none => s.raiseTrunk .mgmtDrop
  | some slot =>
    (s.setManagement { s.management with
      refusals := put s.management.refusals slot
        (some { tag := tag, op := op, status := .queueFull, data := [] }) }).setTrunk
          { s.trunk with
            replies := s.trunk.replies ++
              [{ source := .refusal slot, reply := { tag := tag, op := op, status := .queueFull, data := [] } }] }

/-- A VALID REQUEST reaches the Management Unit (R140). -/
def State.takeRequest (s : State) (tag op : Byte) (operands : List Byte) : State :=
  match s.management.freeSlot with
  | some slot => s.accept slot tag op operands
  | none => s.refuse tag op

/-- The slot a sent reply came from is freed (R143). -/
def Management.free (m : Management) : ReplySource → Management
  | .reply slot => { m with slots := put m.slots slot none }
  | .refusal slot => { m with refusals := put m.refusals slot none }

/-! ### Execution -/

/-- The head request, when the test picks it, leaves the queue and is executed (R142). -/
def State.executeHead (s : State) (picks : QueuedRequest → Bool) (effect : QueuedRequest → State → State) : State :=
  match s.management.queue with
  | [] => s
  | q :: rest => if picks q then effect q (s.setManagement { s.management with queue := rest }) else s

/-- The execution of an operation of a fixed operand length; another length is answered MALFORMED (R144). -/
def State.executeOp (s : State) (op : Byte) (oplen : Nat) (effect : QueuedRequest → State → State) : State :=
  s.executeHead (fun q => q.op == op) fun q s =>
    if q.operands.length = oplen then effect q s else s.answer q .malformed []

/-! ### Banks -/

/-- The other bank. -/
def BankId.other : BankId → BankId
  | .a => .b
  | .b => .a

/-- A bank by its letter. -/
def TableStore.bank (t : TableStore) : BankId → Bank
  | .a => t.bankA
  | .b => t.bankB

/-- The Table Store with one bank replaced. -/
def TableStore.setBank (t : TableStore) (id : BankId) (bank : Bank) : TableStore :=
  match id with
  | .a => { t with bankA := bank }
  | .b => { t with bankB := bank }

/-- The letter of the STANDBY bank (R72). -/
def TableStore.standby (t : TableStore) : BankId := t.active.other

/-- The Table Store after a swap (R80). -/
def TableStore.swapped (t : TableStore) : TableStore :=
  { t with active := t.active.other, generation := t.generation + 1, operation := .idle }

/-- A pending swap takes effect if the Classifier is IDLE, with its reply (R80). -/
def State.landSwap (s : State) : State :=
  match s.table.operation with
  | .swapPending r =>
    if s.classifier.inFlight.isNone then
      (s.setTable s.table.swapped).produceReply r.slot
        { tag := r.tag, op := opSwapBanks, status := .ok,
          data := [s.table.swapped.generation, bankCode s.table.swapped.active] }
    else s
  | .idle => s
  | .copying _ _ => s

end Sys2Proof.Machine
end

