-- ==== Sys2Proof/Machine/Classify.lean ====
section
/-!
DEFINITION. Matching and lookup (chapter 3), the Classifier's arbiter and actions (chapter 4), the Condition Tracker's judgement
(chapter 5); the meanings of CLASSIFICATION_START and CLASSIFICATION_COMPLETES.
-/

namespace Sys2Proof.Machine

/-! ### Matching and lookup -/

/-- The bit of a condition in `conds` (section 10.5.1). -/
def condBit : Cond → Nat
  | .pulse => 0
  | .assert => 1
  | .clear => 2

/-- The action is TRACK. -/
def EntryAction.isTrack : EntryAction → Bool
  | .track _ _ => true
  | .forward _ => false
  | .hold _ => false
  | .count => false
  | .discard => false

/-- A valid entry's definition matches an event (R33); a PULSE passes by a TRACK entry (R36). -/
def Definition.matchesEvent (d : Definition) (requester : Requester) (e : Event) : Bool :=
  member d.ports requester && (e.node &&& d.nodeMask == d.nodeValue) && (e.code &&& d.codeMask == d.codeValue) &&
    member d.conds (condBit e.cond) && !(d.action.isTrack && e.cond == .pulse)

/-- What the entry at an index decides, if it is valid and matches. -/
def Bank.decidedAt (b : Bank) (requester : Requester) (e : Event) (i : EntryId) : Option Decision :=
  (look b.entries i).bind fun entry =>
    if entry.definition.matchesEvent requester e then some { decider := some i, action := entry.definition.action } else none

/-- The default record's action with the level it uses (R34). -/
def DefaultRecord.entryAction (d : DefaultRecord) : EntryAction :=
  match d.action with
  | .forward => .forward d.level
  | .count => .count
  | .discard => .discard

/-- A lookup: the first entry by index that matches, or else the default record (R34). -/
def Bank.lookup (b : Bank) (requester : Requester) (e : Event) : Decision :=
  ((List.finRange 64).findSome? (b.decidedAt requester e)).getD
    { decider := none, action := b.defaultRecord.entryAction }

/-- The decider's hits rise by one (R38). -/
def Bank.countHit (b : Bank) : Option EntryId → Bank
  | none => { b with defaultRecord := { b.defaultRecord with hits := satInc b.defaultRecord.hits } }
  | some i =>
    { b with entries := put b.entries i ((look b.entries i).map fun entry => { entry with hits := satInc entry.hits }) }

/-! ### The arbiter -/

/-- A requester has an event ready to give (R49). -/
def State.eligible (s : State) (r : Requester) : Bool :=
  match portOf r with
  | some p => !(look s.ports p).received.isEmpty
  | none => s.classifier.injection.isSome

/-- The requester the arbiter chooses: the first eligible one from the pointer on (R50). -/
def State.chosen (s : State) : Option Requester :=
  ((List.finRange 7).map fun i => s.classifier.pointer + i).find? s.eligible

/-- No classification is in flight and no swap waits to take effect (R52). -/
def State.mayClassify (s : State) : Bool :=
  s.classifier.inFlight.isNone &&
    match s.table.operation with
    | .swapPending _ => false
    | .idle => true
    | .copying _ _ => true

/-- The event in flight of a requester, with the ACTIVE bank and the generation noted (R51). -/
def State.flight (s : State) (r : Requester) (e : Event) (reply : Option PendingReply) : FlightEvent :=
  { requester := r, event := e, bank := s.table.active, generation := s.table.generation, reply := reply }

/-- A classification starts for the chosen requester (R51). -/
def State.startFor (s : State) (r : Requester) : State :=
  match portOf r with
  | some p =>
    match (look s.ports p).received with
    | [] => s
    | e :: rest =>
      (s.setPort p { look s.ports p with received := rest }).setClassifier
        { s.classifier with inFlight := some (s.flight r e none), pointer := r + 1 }
  | none =>
    match s.classifier.injection with
    | none => s
    | some i =>
      s.setClassifier { inFlight := some (s.flight r i.event (some i.reply)), pointer := r + 1, injection := none }

/-- CLASSIFICATION_START (R50, R51). -/
def execClassificationStart (s : State) : Host.Outcome State Fault Refusal :=
  whenRunning s fun s =>
    if s.mayClassify then
      match s.chosen with
      | some r => s.startFor r
      | none => s
    else s

/-! ### The actions -/

/-- The admission request of a FORWARD or HOLD decision (R54). -/
def FlightEvent.request (f : FlightEvent) (kind : RecordKind) (level : LevelId) : Record where
  kind := kind
  level := level
  origin := f.requester
  node := f.event.node
  code := f.event.code
  cond := f.event.cond
  seq := f.event.seq
  payload := f.event.payload
  repeats := 1
  gen := f.generation
  mayCoalesce := kind == .posted

/-- The state of a slot that an event's `cond` names (R63, R66). -/
def trackStateOf : Cond → TrackState
  | .pulse => .unknown
  | .assert => .asserted
  | .clear => .cleared

/-- The admission request of a change: posted, not coalescing, `repeat` from the slot (R65). -/
def FlightEvent.changeRequest (f : FlightEvent) (level : LevelId) (slot : ConditionSlot) : Record :=
  { f.request .posted level with repeats := satInc slot.absorbed, mayCoalesce := false }

/-- The slot after a repeat (R64). -/
def ConditionSlot.absorb (slot : ConditionSlot) : ConditionSlot := { slot with absorbed := satInc slot.absorbed }

/-- The slot after a change whose record was placed (R66). -/
def ConditionSlot.change (slot : ConditionSlot) (f : FlightEvent) : ConditionSlot where
  state := trackStateOf f.event.cond
  last := some (f.requester, f.event.node)
  changes := satInc slot.changes
  absorbed := 0

/-- A change's admission, and the slot's update if the record was placed (R66, R67). -/
def State.trackChange (s : State) (f : FlightEvent) (level : LevelId) (i : SlotId) : State × ActionOutcome :=
  let admitted := s.admission (f.changeRequest level (look s.conditions i))
  if admitted.2 = .queued then (admitted.1.setCondition i ((look s.conditions i).change f), admitted.2) else admitted

/-- The Condition Tracker takes an event (R63). -/
def State.track (s : State) (f : FlightEvent) (level : LevelId) (i : SlotId) : State × ActionOutcome :=
  if (look s.conditions i).state = trackStateOf f.event.cond then
    (s.setCondition i (look s.conditions i).absorb, .absorbed)
  else s.trackChange f level i

/-- The action of a decision is carried out (R53 to R55). -/
def State.carryOut (s : State) (f : FlightEvent) : EntryAction → State × ActionOutcome
  | .forward l => s.admission (f.request .posted l)
  | .hold l => s.admission (f.request .held l)
  | .track l i => s.track f l i
  | .count => (s, .counted)
  | .discard => (s, .discarded)

/-- The INJECT reply of an injected event (R58). -/
def State.injectReply (s : State) (f : FlightEvent) (d : Decision) (o : ActionOutcome) : State :=
  match f.reply with
  | none => s
  | some r =>
    s.produceReply r.slot
      { tag := r.tag, op := opInject, status := .ok,
        data := [deciderCode d.decider, actionCode d.action, outcomeCode o, f.generation] }

/-- The decision on the event in flight, in the bank noted at its start (R52). -/
def State.decide (s : State) (f : FlightEvent) : Decision := (s.table.bank f.bank).lookup f.requester f.event

/-- The decider's hit is counted in the bank noted at the start (R52). -/
def State.countHit (s : State) (f : FlightEvent) : State :=
  s.setTable (s.table.setBank f.bank ((s.table.bank f.bank).countHit (s.decide f).decider))

/-- The completion of a classification, then a swap that waited for it (R52, R80). -/
def State.completeFlight (s : State) (f : FlightEvent) : State :=
  let done := (s.countHit f).carryOut f (s.decide f).action
  let replied := done.1.injectReply f (s.decide f) done.2
  (replied.setClassifier { replied.classifier with inFlight := none }).landSwap

/-- CLASSIFICATION_COMPLETES (R52). -/
def execClassificationCompletes (s : State) : Host.Outcome State Fault Refusal :=
  whenRunning s fun s =>
    match s.classifier.inFlight with
    | some f => s.completeFlight f
    | none => s

end Sys2Proof.Machine
end

