-- ==== Sys2Proof/Machine/Banks.lean ====
section
/-!
DEFINITION. The Table Store's commands (chapters 3 and 6): SWAP_TAKES_EFFECT, the copy's steps and completion, and the
execution of IDENT, READ-ENTRY, WRITE-ENTRY, CLEAR-ENTRY, WRITE-DEFAULT, COPY-BANK and SWAP-BANKS.
-/

namespace Sys2Proof.Machine

/-! ### Swap and copy -/

/-- SWAP_TAKES_EFFECT (R80). -/
def execSwapTakesEffect (s : State) : Host.Outcome State Fault Refusal :=
  whenRunning s State.landSwap

/-- The STANDBY bank with one item replaced by the ACTIVE bank's definition of it, hits 0 (R78). -/
def TableStore.copyItem (t : TableStore) : CopyProgress → TableStore
  | .entry i =>
    t.setBank t.standby { t.bank t.standby with
      entries := put (t.bank t.standby).entries i
        ((look (t.bank t.active).entries i).map fun e => { e with hits := 0 }) }
  | .defaultRecord =>
    t.setBank t.standby { t.bank t.standby with defaultRecord := { (t.bank t.active).defaultRecord with hits := 0 } }
  | .finished => t

/-- The item after another: entries 0 to 63, then the default record (R78). -/
def CopyProgress.next : CopyProgress → CopyProgress
  | .entry i => if i = 63 then .defaultRecord else .entry (i + 1)
  | .defaultRecord => .finished
  | .finished => .finished

/-- COPY_STEP (R78). -/
def execCopyStep (s : State) : Host.Outcome State Fault Refusal :=
  whenRunning s fun s =>
    match s.table.operation with
    | .copying progress r => s.setTable { s.table.copyItem progress with operation := .copying progress.next r }
    | .idle => s
    | .swapPending _ => s

/-- COPY_COMPLETES (R78): once the default record is copied. -/
def execCopyCompletes (s : State) : Host.Outcome State Fault Refusal :=
  whenRunning s fun s =>
    match s.table.operation with
    | .copying .finished r =>
      (s.setTable { s.table with operation := .idle }).produceReply r.slot
        { tag := r.tag, op := opCopyBank, status := .ok, data := [bankCode s.table.standby, s.table.generation] }
    | .copying (.entry _) _ => s
    | .copying .defaultRecord _ => s
    | .idle => s
    | .swapPending _ => s

/-! ### IDENT and the table operations -/

/-- The data of IDENT (R145). -/
def identData : List Byte :=
  numberBytes Config.vendor ++ numberBytes Config.part ++
    [Config.revision, Config.ports, Config.entries, Config.banks, Config.levels, Config.records, Config.slots,
      Config.requests]

/-- IDENT (R145). -/
def execIdent (s : State) : Host.Outcome State Fault Refusal :=
  whenRunning s fun s => s.executeOp opIdent 0 fun q s => s.answer q .ok identData

/-- The item a READ-ENTRY names, as bytes with its hits (R74). -/
def Bank.itemBytes (b : Bank) : ItemName → List Byte
  | .entry i => entryBytes (look b.entries i)
  | .defaultRecord => defaultRecordBytes b.defaultRecord

/-- The bank with the hits of one item cleared (R75). -/
def Bank.clearHits (b : Bank) : ItemName → Bank
  | .entry i => { b with entries := put b.entries i ((look b.entries i).map fun e => { e with hits := 0 }) }
  | .defaultRecord => { b with defaultRecord := { b.defaultRecord with hits := 0 } }

/-- Codes of `role`: ACTIVE 1, STANDBY 2 (section 10.5.1). -/
def TableStore.roleCode (t : TableStore) (id : BankId) : Byte := if id = t.active then 1 else 2

/-- The data of a READ-ENTRY reply (R74). -/
def TableStore.readData (t : TableStore) (id : BankId) (item : ItemName) : List Byte :=
  [bankCode id, t.roleCode id, t.generation, itemCode item] ++ (t.bank id).itemBytes item

/-- The clear option of READ-ENTRY (R75). -/
def TableStore.readClear (t : TableStore) (id : BankId) (item : ItemName) (clear : Bool) : TableStore :=
  if clear then t.setBank id ((t.bank id).clearHits item) else t

/-- READ-ENTRY with legal operands (R74, R75). -/
def State.readItem (s : State) (q : QueuedRequest) (id : BankId) (item : ItemName) (clear : Bool) : State :=
  (s.setTable (s.table.readClear id item clear)).answer q .ok (s.table.readData id item)

/-- READ_ENTRY (R74, R146). -/
def execReadEntry (s : State) : Host.Outcome State Fault Refusal :=
  whenRunning s fun s => s.executeOp opReadEntry 3 fun q s =>
    match bankOperand (operand q.operands 0), itemOperand (operand q.operands 1), flagOperand (operand q.operands 2) with
    | some id, some item, some clear => s.readItem q id item clear
    | _, _, _ => s.answer q .illegal []

/-- The bank-operation state is IDLE (R73). -/
def TableStore.operationIdle (t : TableStore) : Bool := t.operation == .idle

/-- A write whose checks have passed: carried out on the STANDBY bank in IDLE, else answered BUSY (R73). -/
def State.writeStandby (s : State) (q : QueuedRequest) (edit : Bank → Bank) (data : List Byte) : State :=
  if s.table.operationIdle then
    (s.setTable (s.table.setBank s.table.standby (edit (s.table.bank s.table.standby)))).answer q .ok
      ([bankCode s.table.standby, s.table.generation] ++ data)
  else s.answer q .busy []

/-- The bank with an entry given a definition, hits 0, or the cleared form (R42, R43). -/
def Bank.setEntry (b : Bank) (i : EntryId) (d : Option Definition) : Bank :=
  { b with entries := put b.entries i (d.map fun d => { definition := d, hits := 0 }) }

/-- WRITE_ENTRY (R41, R42, R73, R146). -/
def execWriteEntry (s : State) : Host.Outcome State Fault Refusal :=
  whenRunning s fun s => s.executeOp opWriteEntry 12 fun q s =>
    match writeEntryReason q.operands with
    | some reason => s.answer q .illegal [reason]
    | none =>
      s.writeStandby q (fun b => b.setEntry (entryOf (operand q.operands 0)) (some (definitionOf q.operands)))
        [operand q.operands 0]

/-- CLEAR_ENTRY (R43, R73, R146). -/
def execClearEntry (s : State) : Host.Outcome State Fault Refusal :=
  whenRunning s fun s => s.executeOp opClearEntry 1 fun q s =>
    if 63 < (operand q.operands 0).toNat then s.answer q .illegal [1]
    else s.writeStandby q (fun b => b.setEntry (entryOf (operand q.operands 0)) none) [operand q.operands 0]

/-- WRITE_DEFAULT (R41, R42, R73, R146). -/
def execWriteDefault (s : State) : Host.Outcome State Fault Refusal :=
  whenRunning s fun s => s.executeOp opWriteDefault 2 fun q s =>
    match writeDefaultReason q.operands with
    | some reason => s.answer q .illegal [reason]
    | none => s.writeStandby q (fun b => { b with defaultRecord := defaultRecordOf q.operands }) []

/-- COPY_BANK (R77). -/
def execCopyBank (s : State) : Host.Outcome State Fault Refusal :=
  whenRunning s fun s => s.executeOp opCopyBank 0 fun q s =>
    if s.table.operationIdle then
      (s.defer q).setTable { s.table with operation := .copying (.entry 0) q.later }
    else s.answer q .busy []

/-- SWAP_BANKS (R79): pending, and taking effect at once if the Classifier is IDLE. -/
def execSwapBanks (s : State) : Host.Outcome State Fault Refusal :=
  whenRunning s fun s => s.executeOp opSwapBanks 0 fun q s =>
    if s.table.operationIdle then
      ((s.defer q).setTable { s.table with operation := .swapPending q.later }).landSwap
    else s.answer q .busy []

end Sys2Proof.Machine
end

