-- ==== Sys2Proof/Machine/Receive.lean ====
section
/-!
DEFINITION. What arrives on the lines: frames from a node (R15) and from the supervisor (R125), the pause state (R128), the
grant of a notice (R134, R136), and lines that come live or go dead (R2, R14, R124) with the aborts this causes (R22, R96, R111,
R115, R131).
-/

namespace Sys2Proof.Machine

/-! ### Frames from a node -/

/-- A VALID EVENT frame joins the receive queue, or is discarded with OVERRUN (R15). -/
def State.receiveEvent (s : State) (p : PortId) (e : Event) : State :=
  if (look s.ports p).received.length < Config.receiveCapacity then
    s.setPort p { look s.ports p with received := (look s.ports p).received ++ [e] }
  else s.raisePort p .overrun

/-- An enabled port acts on a verdict (R15). -/
def State.actOnVerdict (s : State) (p : PortId) : Verdict → State
  | .framing => s.raisePort p .framing
  | .check => s.raisePort p .check
  | .unknownKind => s.raisePort p .format
  | .format => s.raisePort p .format
  | .valid bytes =>
    match parseEvent bytes with
    | some e => s.receiveEvent p e
    | none => s

/-- A port is handed a verdict; a DISABLED port discards it (R15). -/
def State.portVerdict (s : State) (p : PortId) (v : Verdict) : State :=
  if (look s.ports p).enabled then s.actOnVerdict p v else s

/-- Symbols arrive on a field line; each verdict is handed to the port at its moment (R3, R4). -/
def State.fieldArrival (s : State) (p : PortId) (symbols : List Symbol) : State :=
  ((look s.ports p).rx.run .field symbols).2.foldl (fun s v => s.portVerdict p v)
    (s.setPort p { look s.ports p with rx := ((look s.ports p).rx.run .field symbols).1 })

/-- EVENT (R15). -/
def execEvent (port : PortId) (node : Byte) (code : Half) (cond spare : BitVec 2) (seq : BitVec 4) (payload : List Byte)
    (s : State) : Host.Outcome State Fault Refusal :=
  whenRunning s fun s => s.fieldArrival port (lineSymbols (closeFrame (eventBody node code cond spare seq payload)))

/-- BAD_FRAME (R15). -/
def execBadFrame (port : PortId) (symbols : List Symbol) (s : State) : Host.Outcome State Fault Refusal :=
  whenRunning s fun s => s.fieldArrival port symbols

/-! ### Frames from the supervisor -/

/-- A PAUSE is taken: duration 0 resumes, another enters or restarts PAUSED (R128). -/
def State.takePause (s : State) (duration : Byte) : State :=
  s.setTrunk { s.trunk with pause := if duration = 0 then .running else .paused duration }

/-- A RESUME or the expiry of the pause timer makes the trunk RUNNING (R128). -/
def State.takeResume (s : State) : State := s.setTrunk { s.trunk with pause := .running }

/-- A completion whose outcome byte has passed R9. -/
def State.withOutcome (s : State) (outcome : Byte) (take : RetireOutcome → State) : State :=
  match completionOutcome outcome with
  | some o => take o
  | none => s

/-- A VALID frame reaches the unit its kind belongs to (R125). -/
def State.routeFrame (s : State) (bytes : List Byte) : State :=
  if bytes.getD 0 0 = kindComplete then s.withOutcome (bytes.getD 2 0) (s.takeComplete (bytes.getD 1 0))
  else if bytes.getD 0 0 = kindCompleteTop then s.withOutcome (bytes.getD 1 0) s.takeCompleteTop
  else if bytes.getD 0 0 = kindPause then s.takePause (bytes.getD 1 0)
  else if bytes.getD 0 0 = kindResume then s.takeResume
  else if bytes.getD 0 0 = kindRequest then
    s.takeRequest (bytes.getD 1 0) (bytes.getD 2 0) ((bytes.drop 4).take (bytes.getD 3 0).toNat)
  else s

/-- The Trunk Port acts on a verdict (R125). -/
def State.trunkVerdict (s : State) : Verdict → State
  | .framing => s.raiseTrunk .framing
  | .check => s.raiseTrunk .check
  | .unknownKind => s.raiseTrunk .unknownKind
  | .format => s.raiseTrunk .format
  | .valid bytes => s.routeFrame bytes

/-- Symbols arrive on the trunk line; each verdict is acted on at once (R125). -/
def State.trunkArrival (s : State) (symbols : List Symbol) : State :=
  (s.trunk.rx.run .trunk symbols).2.foldl State.trunkVerdict
    (s.setTrunk { s.trunk with rx := (s.trunk.rx.run .trunk symbols).1 })

/-- The supervisor sends the frame with these covered bytes. -/
def State.supervisorFrame (s : State) (body : List Byte) : State := s.trunkArrival (lineSymbols (closeFrame body))

/-- BAD_TRUNK_FRAME (R125). -/
def execBadTrunkFrame (symbols : List Symbol) (s : State) : Host.Outcome State Fault Refusal :=
  whenRunning s fun s => s.trunkArrival symbols

/-- COMPLETE (R117). -/
def execComplete (ticket outcome : Byte) (s : State) : Host.Outcome State Fault Refusal :=
  whenRunning s fun s => s.supervisorFrame (completeBody ticket outcome)

/-- COMPLETE_TOP (R118). -/
def execCompleteTop (outcome : Byte) (s : State) : Host.Outcome State Fault Refusal :=
  whenRunning s fun s => s.supervisorFrame (completeTopBody outcome)

/-- PAUSE (R128). -/
def execPause (duration : Byte) (s : State) : Host.Outcome State Fault Refusal :=
  whenRunning s fun s => s.supervisorFrame (pauseBody duration)

/-- RESUME (R128). -/
def execResume (s : State) : Host.Outcome State Fault Refusal :=
  whenRunning s fun s => s.supervisorFrame resumeBody

/-- REQUEST (R140). -/
def execRequest (tag op : Byte) (operands : List Byte) (s : State) : Host.Outcome State Fault Refusal :=
  whenRunning s fun s => s.supervisorFrame (requestBody tag op operands)

/-- PAUSE_TIMER_EXPIRES (R128): while RUNNING no pause timer runs. -/
def execPauseTimerExpires (s : State) : Host.Outcome State Fault Refusal :=
  whenRunning s fun s =>
    match s.trunk.pause with
    | .paused _ => s.takeResume
    | .running => s

/-! ### The grant of a notice -/

/-- The arbiter may make a grant: transmitter IDLE and link UP (R130). -/
def State.trunkFree (s : State) : Bool := s.linkUp && s.trunk.tx.sending.isNone

/-- A granted frame is given to the transmitter, which takes its copy (R10). -/
def State.send (s : State) (granted : GrantedFrame) (bytes : List Byte) : State :=
  s.setTrunk { s.trunk with tx := { s.trunk.tx with sending := some { granted := granted, bytes := bytes } } }

/-- The notice class is granted: the returned notice, or the first latched kind frozen now (R130, R134). -/
def State.grantNotice (s : State) : State :=
  match s.notices.returned with
  | some frame => (s.setNotices { s.notices with returned := none }).send (.notice frame false) (noticeFrame frame)
  | none =>
    match s.notices.nextKind with
    | some kind =>
      (s.setNotices (s.notices.afterFreeze kind)).send (.notice (s.notices.freeze s.freeRecords kind) false)
        (noticeFrame (s.notices.freeze s.freeRecords kind))
    | none => s

/-- RESTARTED is latched for a pin reset and not yet granted (R156). -/
def NoticeUnit.powerWaits (n : NoticeUnit) : Bool := n.restarted.any (·.cause == .power)

/-- The grant that a pin reset's RESTARTED notice takes as soon as it is latched with the link UP, or as the link becomes UP: no
reply and no other frame goes ahead of it (R136, R153, R156). -/
def State.grantRestarted (s : State) : State := if s.trunkFree && s.notices.powerWaits then s.grantNotice else s

/-! ### A line comes live -/

/-- A DEAD receiver becomes LIVE in HUNT (R2). -/
def Receiver.comeLive : Receiver → Receiver
  | .dead => .hunt
  | .hunt => .hunt
  | .inFrame f => .inFrame f

/-- A field line comes live: an enabled port becomes UP with LINK-CHANGE (R14). -/
def State.fieldLive (s : State) (p : PortId) : State :=
  if (look s.ports p).rx.live then s
  else
    let now := s.setPort p { look s.ports p with rx := (look s.ports p).rx.comeLive }
    if s.resetHeld = false ∧ (look s.ports p).enabled = true then now.raisePort p .linkChange else now

/-- The trunk line comes live: the link becomes UP with LINK-CHANGE (R124); a RESTARTED notice of a pin reset that has waited for
this goes ahead of the TRUNK notice it raises (R136, R156). -/
def State.trunkLive (s : State) : State :=
  if s.trunk.rx.live then s
  else
    let now := s.setTrunk { s.trunk with rx := s.trunk.rx.comeLive }
    if s.resetHeld then now else now.grantRestarted.raiseTrunk .linkChange

/-- LINE_COMES_LIVE (R2): while RESET_N is held low the receiver judges on, and reports nothing (R155). -/
def execLineComesLive (link : Link) (s : State) : Host.Outcome State Fault Refusal :=
  .next (match link with
    | .field p => s.fieldLive p
    | .trunk => s.trunkLive)

/-! ### A line goes dead -/

/-- A field transmitter whose frame is aborted or ended early: it sends an abort marker (R11, R12). -/
def FieldTransmitter.abort (tx : FieldTransmitter) : FieldTransmitter :=
  if tx.sending.isSome then { sending := none, closing := .abort } else tx

/-- The trunk transmitter, likewise. -/
def TrunkTransmitter.abort (tx : TrunkTransmitter) : TrunkTransmitter :=
  if tx.sending.isSome then { sending := none, closing := .abort } else tx

/-- A verdict, if there is one, is handed to a port. -/
def State.portVerdict? (s : State) (p : PortId) : Option Verdict → State
  | none => s
  | some v => s.portVerdict p v

/-- A verdict, if there is one, is acted on by the Trunk Port. -/
def State.trunkVerdict? (s : State) : Option Verdict → State
  | none => s
  | some v => s.trunkVerdict v

/-- A field line goes dead: the RELEASE on the wire is aborted and its request unmarked (R11, R22), the frame in reception is
cut (R3), an enabled port becomes DOWN with LINK-CHANGE (R14). -/
def State.fieldDead (s : State) (p : PortId) : State :=
  if (look s.ports p).rx.live = false then s
  else if s.resetHeld then s.setPort p { look s.ports p with rx := .dead }
  else
    let now := s.setPort p
      { look s.ports p with rx := .dead, headMarked := false, tx := (look s.ports p).tx.abort }
    let cut := now.portVerdict? p (look s.ports p).rx.goDead.2
    if (look s.ports p).enabled then cut.raisePort p .linkChange else cut

/-- The owner of an aborted trunk frame acts on the abort (R131): a reply stays at the head of its class, a notice is returned
unless its kind was turned off (R134, R135), a resend goes back to RESEND-WAIT (R115), a dispatch to its queue (R96, R111). -/
def State.ownAbort (s : State) : GrantedFrame → State
  | .reply => s
  | .notice frame cancelled => if cancelled then s else s.setNotices { s.notices with returned := some frame }
  | .resend l ticket =>
    match s.reported l ticket (· == .resending) with
    | some r => s.setInService l (some { r with phase := .resendWait, attempt := r.attempt - 1 })
    | none => s
  | .dispatch l (some ticket) =>
    match s.reported l ticket (· == .dispatching) with
    | some r => (s.setInService l none).abortReturn r.record
    | none => s
  | .dispatch _ none =>
    match s.levelUnit.inTransmission with
    | some r => (s.setLevelUnit { s.levelUnit with inTransmission := none }).abortReturn r
    | none => s

/-- The abort of the frame on the trunk, if there is one, is reported to its owner (R11, R131). -/
def State.abortTrunk (s : State) : State :=
  match s.trunk.tx.sending with
  | none => s
  | some frame => (s.setTrunk { s.trunk with tx := s.trunk.tx.abort }).ownAbort frame.granted

/-- The trunk line goes dead: the frame in reception is cut (R3), the link becomes DOWN with LINK-CHANGE (R124), the frame on
the wire is aborted (R131). -/
def State.trunkDead (s : State) : State :=
  if s.trunk.rx.live = false then s
  else if s.resetHeld then s.setTrunk { s.trunk with rx := .dead }
  else
    (((s.setTrunk { s.trunk with rx := .dead }).trunkVerdict? s.trunk.rx.goDead.2).raiseTrunk .linkChange).abortTrunk

/-- LINE_GOES_DEAD (R2). -/
def execLineGoesDead (link : Link) (s : State) : Host.Outcome State Fault Refusal :=
  .next (match link with
    | .field p => s.fieldDead p
    | .trunk => s.trunkDead)

end Sys2Proof.Machine
end

