-- ==== Sys2Proof/Machine/Transmit.lean ====
section
/-!
DEFINITION. What the part sends: releases (R20, R21), the trunk arbiter's grants (R130, R134, R114, R108, R109), the ends of
transmissions (R131, R143, R110, R115) and the service timer's expiry (R113).
-/

namespace Sys2Proof.Machine

/-! ### Releases -/

/-- A port may start its head release: UP, transmitter IDLE, head not marked (R20). -/
def FieldPort.mayStart (port : FieldPort) : Bool :=
  port.state == .up && port.tx.sending.isNone && !port.headMarked

/-- RELEASE_TRANSMISSION_START (R20). -/
def execReleaseTransmissionStart (p : PortId) (s : State) : Host.Outcome State Fault Refusal :=
  whenRunning s fun s =>
    match (look s.ports p).releases with
    | [] => s
    | q :: _ =>
      if (look s.ports p).mayStart then
        s.setPort p { look s.ports p with
          headMarked := true
          tx := { (look s.ports p).tx with sending := some (releaseFrame q) } }
      else s

/-- A port whose RELEASE has been sent: the marked request, if still there, is removed (R21). -/
def FieldPort.released (port : FieldPort) : FieldPort :=
  { port with
    releases := if port.headMarked then port.releases.tail else port.releases
    headMarked := false
    tx := { sending := none, closing := .endMarker } }

/-- RELEASE_COMPLETES (R21). -/
def execReleaseCompletes (p : PortId) (s : State) : Host.Outcome State Fault Refusal :=
  whenRunning s fun s =>
    if (look s.ports p).tx.sending.isSome then s.setPort p (look s.ports p).released else s

/-! ### Grants -/

/-- Resends and dispatches are grantable: RUNNING, and no reply or notice ready (R129, R130). -/
def State.eventsGrantable (s : State) : Bool :=
  s.trunkFree && s.trunk.replies.isEmpty && !s.notices.ready && s.trunk.pause == .running

/-- REPLY_GRANT (R130). -/
def execReplyGrant (s : State) : Host.Outcome State Fault Refusal :=
  whenRunning s fun s =>
    if s.trunkFree then
      match s.trunk.replies with
      | r :: _ => s.send .reply (replyFrame r.reply)
      | [] => s
    else s

/-- NOTICE_GRANT (R134). -/
def execNoticeGrant (s : State) : Host.Outcome State Fault Refusal :=
  whenRunning s fun s => if s.trunkFree && s.trunk.replies.isEmpty then s.grantNotice else s

/-- The record of a level is sent again: RESENDING, attempt raised (R114). -/
def State.resendFrom (s : State) (l : LevelId) : State :=
  match s.inServiceAt l with
  | some r =>
    (s.setInService l (some { r with phase := .resending, attempt := r.attempt + 1 })).send (.resend l r.ticket)
      (upEventFrame r.record r.ticket (r.attempt + 1))
  | none => s

/-- RESEND_GRANT (R114). -/
def execResendGrant (s : State) : Host.Outcome State Fault Refusal :=
  whenRunning s fun s =>
    if s.eventsGrantable then
      match s.resendList with
      | l :: _ => s.resendFrom l
      | [] => s
    else s

/-- A level with its dispatched count raised (R89). -/
def Level.countDispatched (level : Level) : Level :=
  { level with counts := { level.counts with dispatched := satInc level.counts.dispatched } }

/-- A posted record is granted: it is in transmission, and its UP-EVENT carries ticket 0 and attempt 1 (R108). -/
def State.grantPosted (s : State) (l : LevelId) (r : Record) : State :=
  (s.setLevelUnit { s.levelUnit with inTransmission := some r }).send (.dispatch l none) (upEventFrame r 0 1)

/-- The ticket counter takes the ticket assigned (R109). -/
def State.setTicketCounter (s : State) (t : Byte) : State := s.setService { s.service with ticketCounter := t }

/-- A held record is granted with a ticket and enters service, its level's dispatched count raised (R109). -/
def State.grantHeld (s : State) (l : LevelId) (r : Record) (ticket : Byte) : State :=
  (((s.setLevel l (s.levelAt l).countDispatched).setInService l
    (some { record := r, ticket := ticket, attempt := 1, phase := .dispatching })).setTicketCounter ticket).send
      (.dispatch l (some ticket)) (upEventFrame r ticket 1)

/-- The head record of a level is removed from its queue and granted by its kind (R108). -/
def State.dispatchFrom (s : State) (l : LevelId) : State :=
  match (s.levelAt l).queue with
  | [] => s
  | r :: rest =>
    match r.kind with
    | .posted => (s.setLevel l { s.levelAt l with queue := rest }).grantPosted l r
    | .held => (s.setLevel l { s.levelAt l with queue := rest }).grantHeld l r s.newTicket

/-- DISPATCH_GRANT (R107, R108): no candidate, no grant. -/
def execDispatchGrant (s : State) : Host.Outcome State Fault Refusal :=
  whenRunning s fun s =>
    if s.eventsGrantable && s.resendList.isEmpty then
      match s.topCandidate with
      | some l => s.dispatchFrom l
      | none => s
    else s

/-! ### Ends of transmissions -/

/-- The trunk transmitter has sent an end marker: it discards its copy and is IDLE (R10). -/
def State.trunkSent (s : State) : State :=
  s.setTrunk { s.trunk with tx := { sending := none, closing := .endMarker } }

/-- The reply that has been sent, the head of its class, leaves it, and its slot is freed (R131, R143). -/
def State.replySent (s : State) : State :=
  match s.trunk.replies with
  | [] => s
  | r :: rest =>
    (s.setTrunk { s.trunk with replies := rest }).setManagement (s.management.free r.source)

/-- REPLY_COMPLETES (R143). -/
def execReplyCompletes (s : State) : Host.Outcome State Fault Refusal :=
  whenRunning s fun s =>
    match s.trunk.tx.sending.map TrunkFrame.granted with
    | some .reply => s.trunkSent.replySent
    | some (.notice _ _) => s
    | some (.resend _ _) => s
    | some (.dispatch _ _) => s
    | none => s

/-- NOTICE_COMPLETES (R131): the frozen frame is discarded with the copy. -/
def execNoticeCompletes (s : State) : Host.Outcome State Fault Refusal :=
  whenRunning s fun s =>
    match s.trunk.tx.sending.map TrunkFrame.granted with
    | some (.notice _ _) => s.trunkSent
    | some .reply => s
    | some (.resend _ _) => s
    | some (.dispatch _ _) => s
    | none => s

/-- AWAITING with the level's timer, if its `timeout` is nonzero at this moment (R112). -/
def State.awaitingAt (s : State) (l : LevelId) : SubState :=
  .awaiting (if (s.levelAt l).settings.timeout = 0 then none else some (s.levelAt l).settings.timeout)

/-- A transmission of a held record has ended: it moves to AWAITING, unless it is no longer in service (R110, R115). -/
def State.awaitAfter (s : State) (l : LevelId) (ticket : Byte) (inPhase : SubState → Bool) : State :=
  match s.reported l ticket inPhase with
  | some r => s.setInService l (some { r with phase := s.awaitingAt l })
  | none => s

/-- A posted record's transmission has ended: it is freed, counted as dispatched and its level served; a record that a reset
has freed is not there (R95, R110). -/
def State.postedSent (s : State) : State :=
  match s.levelUnit.inTransmission with
  | none => s
  | some r =>
    ((s.setLevelUnit { s.levelUnit with inTransmission := none }).setLevel r.level
      (s.levelAt r.level).countDispatched).serve r.level

/-- FIRST_TRANSMISSION_ENDS (R110). -/
def execFirstTransmissionEnds (s : State) : Host.Outcome State Fault Refusal :=
  whenRunning s fun s =>
    match s.trunk.tx.sending.map TrunkFrame.granted with
    | some (.dispatch _ none) => s.trunkSent.postedSent
    | some (.dispatch l (some ticket)) => s.trunkSent.awaitAfter l ticket (· == .dispatching)
    | some .reply => s
    | some (.notice _ _) => s
    | some (.resend _ _) => s
    | none => s

/-- RESEND_ENDS (R115). -/
def execResendEnds (s : State) : Host.Outcome State Fault Refusal :=
  whenRunning s fun s =>
    match s.trunk.tx.sending.map TrunkFrame.granted with
    | some (.resend l ticket) => s.trunkSent.awaitAfter l ticket (· == .resending)
    | some .reply => s
    | some (.notice _ _) => s
    | some (.dispatch _ _) => s
    | none => s

/-! ### The service timer -/

/-- The timer of a record runs (R112). -/
def SubState.timed : SubState → Bool
  | .awaiting (some _) => true
  | .awaiting none => false
  | .dispatching => false
  | .resendWait => false
  | .resending => false

/-- The timer of the record in service at a level expires: RESEND-WAIT if attempts remain, else LAPSED (R113). -/
def State.expire (s : State) (l : LevelId) (r : ServiceRecord) : State :=
  if r.attempt.toNat < (s.levelAt l).settings.retries.toNat + 1 then
    s.setInService l (some { r with phase := .resendWait })
  else s.retire l r .lapsed

/-- SERVICE_TIMER_EXPIRES (R113). -/
def execServiceTimerExpires (l : LevelId) (s : State) : Host.Outcome State Fault Refusal :=
  whenRunning s fun s =>
    match s.inServiceAt l with
    | some r => if r.phase.timed then s.expire l r else s
    | none => s

end Sys2Proof.Machine
end

