-- ==== Sys2Proof/Machine/Manage.lean ====
section
/-!
DEFINITION. The execution of the other management operations: levels, order, pool (R147), ports, trunk, conditions, notices
(R148), INJECT (R149) and an op that names no operation (R144).
-/

namespace Sys2Proof.Machine

/-! ### Levels, order and pool -/

/-- The ticket and sub-state bytes of READ-LEVEL, 0 and 0 when nothing is in service (section 10.5.2). -/
def serviceBytes : Option ServiceRecord → List Byte
  | some r => [r.ticket, subStateCode r.phase]
  | none => [0, 0]

/-- The data of a READ-LEVEL reply (section 10.5.2). -/
def levelData (l : LevelId) (level : Level) (inService : Option ServiceRecord) : List Byte :=
  [byteOf l, level.settings.limit, policyCode level.settings.policy, flagByte level.settings.coalesce,
    level.settings.timeout, level.settings.retries, flagByte level.masked, byteOf level.queue.length] ++
  numberBytes level.counts.dispatched ++ numberBytes level.counts.done ++ numberBytes level.counts.rejected ++
  numberBytes level.counts.lapsed ++ numberBytes level.counts.dropped ++ numberBytes level.counts.flushed ++
  numberBytes level.counts.highWater ++ serviceBytes inService

/-- The clear option of READ-LEVEL: six counts become 0, high-water the queue length (R99). -/
def Level.clearCounts (level : Level) : Level :=
  { level with counts := { LevelCounts.initial with highWater := BitVec.ofNat 16 level.queue.length } }

/-- READ-LEVEL with legal operands (R99). -/
def State.readLevelOf (s : State) (q : QueuedRequest) (l : LevelId) (clear : Bool) : State :=
  (if clear then s.setLevel l (s.levelAt l).clearCounts else s).answer q .ok
    (levelData l (s.levelAt l) (s.inServiceAt l))

/-- READ_LEVEL (R99, R147). -/
def execReadLevel (s : State) : Host.Outcome State Fault Refusal :=
  whenRunning s fun s => s.executeOp opReadLevel 2 fun q s =>
    match boundedOperand 16 (operand q.operands 0), flagOperand (operand q.operands 1) with
    | some l, some clear => s.readLevelOf q l clear
    | _, _ => s.answer q .illegal []

/-- WRITE-LEVEL with legal operands: CONFLICT when the limit is below the queue length (R98). -/
def State.writeLevelOf (s : State) (q : QueuedRequest) (l : LevelId) (settings : LevelSettings) : State :=
  if settings.limit.toNat < (s.levelAt l).queue.length then s.answer q .conflict []
  else (s.setLevel l { s.levelAt l with settings := settings }).answer q .ok []

/-- WRITE_LEVEL (R98, R147). -/
def execWriteLevel (s : State) : Host.Outcome State Fault Refusal :=
  whenRunning s fun s => s.executeOp opWriteLevel 6 fun q s =>
    match boundedOperand 16 (operand q.operands 0), settingsOperand q.operands with
    | some l, some settings => s.writeLevelOf q l settings
    | _, _ => s.answer q .illegal []

/-- SET-ORDER with legal operands (R106). -/
def State.setOrderTo (s : State) (q : QueuedRequest) (mode : PriorityMode) (lowest : LevelId) (nesting : Nesting) :
    State :=
  (s.setService { s.service with mode := mode, lowest := lowest, nesting := nesting }).answer q .ok
    [modeCode mode, byteOf lowest, nestingCode nesting, byteOf s.service.lowest]

/-- SET_ORDER (R106, R147). -/
def execSetOrder (s : State) : Host.Outcome State Fault Refusal :=
  whenRunning s fun s => s.executeOp opSetOrder 3 fun q s =>
    match modeOperand (operand q.operands 0), boundedOperand 16 (operand q.operands 1),
      nestingOperand (operand q.operands 2) with
    | some mode, some lowest, some nesting => s.setOrderTo q mode lowest nesting
    | _, _, _ => s.answer q .illegal []

/-- The Level Unit with its whole mask replaced (R88). -/
def LevelUnit.withMask (u : LevelUnit) (mask : BitVec 16) : LevelUnit :=
  { u with levels := tabulate fun l => { look u.levels l with masked := member mask l } }

/-- MASK_LEVELS (R88, R147). -/
def execMaskLevels (s : State) : Host.Outcome State Fault Refusal :=
  whenRunning s fun s => s.executeOp opMaskLevels 2 fun q s =>
    (s.setLevelUnit (s.levelUnit.withMask (maskOperand q.operands))).answer q .ok (setBytes (maskOperand q.operands))

/-- The record in service at a level, if any, retired FLUSHED (R97). -/
def State.flushService (s : State) (l : LevelId) : State :=
  match s.inServiceAt l with
  | some r => s.retire l r .flushed
  | none => s

/-- Every pending record of a level freed, the flushed count raised by one for each (R97). -/
def State.emptyQueue (s : State) (l : LevelId) : State :=
  s.setLevel l { s.levelAt l with
    queue := []
    counts := { (s.levelAt l).counts with
      flushed := satAdd (s.levelAt l).counts.flushed (s.levelAt l).queue.length } }

/-- The RELEASE FLUSHED requests of freed records, from the head to the tail (R94, R97). -/
def State.releaseFlushed (s : State) (records : List Record) : State :=
  records.foldl (fun s r => s.releaseIfHeld r .flushed) s

/-- FLUSH-LEVEL's effect (R97). -/
def State.flush (s : State) (l : LevelId) : State :=
  ((s.flushService l).emptyQueue l).releaseFlushed (s.levelAt l).queue

/-- FLUSH_LEVEL (R97, R147). -/
def execFlushLevel (s : State) : Host.Outcome State Fault Refusal :=
  whenRunning s fun s => s.executeOp opFlushLevel 1 fun q s =>
    match boundedOperand 16 (operand q.operands 0) with
    | some l =>
      (s.flush l).answer q .ok [byteOf (s.levelAt l).queue.length, flagByte (s.inServiceAt l).isSome]
    | none => s.answer q .illegal []

/-- The data of a READ-POOL reply (R100). -/
def State.poolData (s : State) : List Byte :=
  [byteOf s.freeRecords, byteOf s.pendingRecords, byteOf s.recordsInService, byteOf s.recordsInTransmission,
    s.levelUnit.lowWater] ++ numberBytes s.levelUnit.refusals

/-- READ_POOL (R100, R147). -/
def execReadPool (s : State) : Host.Outcome State Fault Refusal :=
  whenRunning s fun s => s.executeOp opReadPool 0 fun q s =>
    (s.setLevelUnit { s.levelUnit with lowWater := byteOf s.freeRecords, refusals := 0 }).answer q .ok s.poolData

/-! ### Ports, trunk, conditions and notices -/

/-- The data of a READ-PORT reply (R18). -/
def portData (p : PortId) (port : FieldPort) : List Byte :=
  [byteOf p, portStateCode port.state, flagByte port.enabled, flagByte port.noticeEnabled, byteOf port.received.length,
    byteOf port.releases.length, port.conditions.zeroExtend 8]

/-- READ_PORT (R18, R148). -/
def execReadPort (s : State) : Host.Outcome State Fault Refusal :=
  whenRunning s fun s => s.executeOp opReadPort 1 fun q s =>
    match boundedOperand 6 (operand q.operands 0) with
    | some p => (s.setPort p { look s.ports p with conditions := 0 }).answer q .ok (portData p (look s.ports p))
    | none => s.answer q .illegal []

/-- A port being disabled (R25): both queues emptied, a RELEASE on the wire ended early. -/
def FieldPort.disable (port : FieldPort) : FieldPort :=
  { port with enabled := false, received := [], releases := [], headMarked := false, tx := port.tx.abort }

/-- A port given both settings (R23 to R25); the state of an enabled port follows its receiver. -/
def FieldPort.configure (port : FieldPort) (enabled noticeEnabled : Bool) : FieldPort :=
  if enabled then { port with enabled := true, noticeEnabled := noticeEnabled }
  else if port.enabled then { port.disable with noticeEnabled := noticeEnabled }
  else { port with noticeEnabled := noticeEnabled }

/-- WRITE-PORT with legal operands (R23). -/
def State.writePortOf (s : State) (q : QueuedRequest) (p : PortId) (enabled noticeEnabled : Bool) : State :=
  (s.setPort p ((look s.ports p).configure enabled noticeEnabled)).answer q .ok
    [byteOf p, portStateCode ((look s.ports p).configure enabled noticeEnabled).state]

/-- WRITE_PORT (R23, R148). -/
def execWritePort (s : State) : Host.Outcome State Fault Refusal :=
  whenRunning s fun s => s.executeOp opWritePort 3 fun q s =>
    match boundedOperand 6 (operand q.operands 0), flagOperand (operand q.operands 1),
      flagOperand (operand q.operands 2) with
    | some p, some enabled, some noticeEnabled => s.writePortOf q p enabled noticeEnabled
    | _, _, _ => s.answer q .illegal []

/-- The data of a READ-TRUNK reply (R127). -/
def State.trunkData (s : State) : List Byte :=
  [flagByte s.linkUp, pauseCode s.trunk.pause, s.trunk.conditions.zeroExtend 8] ++ numberBytes s.trunk.strays

/-- READ_TRUNK (R127). -/
def execReadTrunk (s : State) : Host.Outcome State Fault Refusal :=
  whenRunning s fun s => s.executeOp opReadTrunk 0 fun q s =>
    (s.setTrunk { s.trunk with conditions := 0, strays := 0 }).answer q .ok s.trunkData

/-- The `present`, `last_port` and `last_node` bytes of READ-CONDITION (R148). -/
def lastBytes : Option (Requester × Byte) → List Byte
  | some (r, node) => [1, byteOf r, node]
  | none => [0, 0, 0]

/-- The data of a READ-CONDITION reply (R69). -/
def conditionData (i : SlotId) (slot : ConditionSlot) : List Byte :=
  [byteOf i, trackStateCode slot.state] ++ lastBytes slot.last ++ numberBytes slot.changes ++ [slot.absorbed]

/-- READ_CONDITION (R69, R148). -/
def execReadCondition (s : State) : Host.Outcome State Fault Refusal :=
  whenRunning s fun s => s.executeOp opReadCondition 1 fun q s =>
    match boundedOperand 32 (operand q.operands 0) with
    | some i => s.answer q .ok (conditionData i (look s.conditions i))
    | none => s.answer q .illegal []

/-- Every condition slot cleared in one step (R70). -/
def State.clearAllConditions (s : State) : State := { s with conditions := Vector.replicate 32 ConditionSlot.initial }

/-- CLEAR_CONDITION (R70, R148): FFh names all slots. -/
def execClearCondition (s : State) : Host.Outcome State Fault Refusal :=
  whenRunning s fun s => s.executeOp opClearCondition 1 fun q s =>
    if operand q.operands 0 = 0xFF then s.clearAllConditions.answer q .ok []
    else
      match boundedOperand 32 (operand q.operands 0) with
      | some i => (s.setCondition i ConditionSlot.initial).answer q .ok []
      | none => s.answer q .illegal []

/-- A NOTICE on the wire whose kind is off is marked, so that an abort discards it (R135). -/
def GrantedFrame.cancelIfOff (enables : BitVec 5) : GrantedFrame → GrantedFrame
  | .notice frame cancelled => .notice frame (cancelled || !kindOn enables frame.kind)
  | .reply => .reply
  | .resend l t => .resend l t
  | .dispatch l t => .dispatch l t

/-- The trunk transmitter after NOTICE-ENABLE (R135). -/
def TrunkTransmitter.cancelIfOff (tx : TrunkTransmitter) (enables : BitVec 5) : TrunkTransmitter :=
  { tx with sending := tx.sending.map fun f => { f with granted := f.granted.cancelIfOff enables } }

/-- NOTICE-ENABLE's effect (R135). -/
def State.enableNotices (s : State) (enables : BitVec 5) : State :=
  (s.setNotices (s.notices.withEnables enables)).setTrunk { s.trunk with tx := s.trunk.tx.cancelIfOff enables }

/-- NOTICE_ENABLE (R135, R148). -/
def execNoticeEnable (s : State) : Host.Outcome State Fault Refusal :=
  whenRunning s fun s => s.executeOp opNoticeEnable 1 fun q s =>
    if 31 < (operand q.operands 0).toNat then s.answer q .illegal []
    else (s.enableNotices ((operand q.operands 0).truncate 5)).answer q .ok [operand q.operands 0]

/-! ### INJECT and an unknown op -/

/-- INJECT with legal operands: fills an empty slot and is answered later, or is answered BUSY (R57). -/
def State.injectEvent (s : State) (q : QueuedRequest) (e : Event) : State :=
  match s.classifier.injection with
  | some _ => s.answer q .busy []
  | none => (s.defer q).setClassifier { s.classifier with injection := some { event := e, reply := q.later } }

/-- INJECT (R57, R149). -/
def execInject (s : State) : Host.Outcome State Fault Refusal :=
  whenRunning s fun s => s.executeHead (fun q => q.op == opInject) fun q s =>
    if injectLengthOk q.operands then
      match injectedEvent q.operands with
      | some e => s.injectEvent q e
      | none => s.answer q .illegal []
    else s.answer q .malformed []

/-- UNSUPPORTED_OP (R144). -/
def execUnsupportedOp (s : State) : Host.Outcome State Fault Refusal :=
  whenRunning s fun s => s.executeHead (fun q => opUnknown q.op) fun q s => s.answer q .unsupported []

end Sys2Proof.Machine
end

