-- ==== Sys2Proof/Machine/Resets.lean ====
section
/-!
DEFINITION. The three resets: RESET_N held low and its release (R155), RESET with scope TRAFFIC (R150) and with scope FULL
(R151), each from the reset rules of the units' chapters.
-/

namespace Sys2Proof.Machine

/-! ### RESET_N -/

/-- A receiver while RESET_N is held low: it judges its line and assembles no frame (R26, R136, R155). -/
def Receiver.ignoreFrames : Receiver → Receiver
  | .dead => .dead
  | .hunt => .hunt
  | .inFrame _ => .hunt

/-- A field transmitter sends idle: a frame in progress is cut off without an end marker (R12). -/
def FieldTransmitter.cutOff (tx : FieldTransmitter) : FieldTransmitter :=
  if tx.sending.isSome then { sending := none, closing := .idle } else tx

/-- The trunk transmitter, likewise. -/
def TrunkTransmitter.cutOff (tx : TrunkTransmitter) : TrunkTransmitter :=
  if tx.sending.isSome then { sending := none, closing := .idle } else tx

/-- A port while RESET_N is held low (R26). -/
def FieldPort.hold (port : FieldPort) : FieldPort := { port with rx := port.rx.ignoreFrames, tx := port.tx.cutOff }

/-- RESET_N_LOW (R155). -/
def execResetNLow (s : State) : Host.Outcome State Fault Refusal :=
  .next { s with
    resetHeld := true
    ports := tabulate fun p => (look s.ports p).hold
    trunk := { s.trunk with rx := s.trunk.rx.ignoreFrames, tx := s.trunk.tx.cutOff } }

/-- A receiver after its initial judgement (R2). -/
def judged (live : Bool) : Receiver := if live then .hunt else .dead

/-- The part as its units take their state at a release of RESET_N, with the lines as they are judged and the waiting commands
(R155). -/
def State.initialised (lines : LineJudgement) (waiting : List Instr) : State :=
  { State.reset with
    ports := tabulate fun p => FieldPort.initial (judged (look lines.fields p))
    trunk := TrunkPort.initial (judged lines.trunk)
    pending := waiting }

/-- The part right after a release of RESET_N: if the link is UP, the RESTARTED notice is granted as soon as it is latched
(R136, R156). -/
def State.released (lines : LineJudgement) (waiting : List Instr) : State :=
  (State.initialised lines waiting).grantRestarted

/-- RESET_N_RELEASE (R155): the release of a low level that has not lasted 10 µs changes nothing. -/
def execResetNRelease (lines : LineJudgement) (s : State) : Host.Outcome State Fault Refusal :=
  .next (if s.resetHeld then State.released lines s.pending else s)

/-! ### TRAFFIC -/

/-- A port after a TRAFFIC reset: queues emptied, a RELEASE on the wire not cut (R29). -/
def FieldPort.traffic (port : FieldPort) : FieldPort := { port with received := [], releases := [], headMarked := false }

/-- The Level Unit after a TRAFFIC reset (R101). -/
def LevelUnit.traffic (u : LevelUnit) : LevelUnit :=
  { u with
    levels := tabulate fun l => { look u.levels l with queue := [] }
    inTransmission := none
    lowWater := Config.records }

/-- The Service Unit after a TRAFFIC reset (R122). -/
def ServiceUnit.traffic (u : ServiceUnit) : ServiceUnit :=
  { u with inService := Vector.replicate 16 none, ticketCounter := 0 }

/-- An abandoned INJECT, if there is one, is answered CONFLICT (R60). -/
def State.answerConflict (s : State) : Option PendingReply → State
  | none => s
  | some r => s.produceReply r.slot { tag := r.tag, op := opInject, status := .conflict, data := [] }

/-- The units' TRAFFIC effects but for the replies and the swap (R29, R47, R60, R71, R101, R122, R138). -/
def State.trafficEffects (s : State) : State :=
  { s with
    ports := tabulate fun p => (look s.ports p).traffic
    classifier := Classifier.initial
    conditions := Vector.replicate 32 ConditionSlot.initial
    levelUnit := s.levelUnit.traffic
    service := s.service.traffic
    trunk := { s.trunk with pause := .running } }

/-- A TRAFFIC reset with the replies it causes, in the order of R150: the INJECT in flight, the INJECT in the slot, the swap. -/
def State.trafficReset (s : State) : State :=
  ((s.answerConflict (s.classifier.inFlight.bind FlightEvent.reply)).answerConflict
    (s.classifier.injection.map InjectedEvent.reply)).trafficEffects.landSwap

/-! ### FULL -/

/-- A port after a FULL reset: as after a pin reset, its receiver kept, a RELEASE on the wire ended early (R28). -/
def FieldPort.full (port : FieldPort) : FieldPort := { FieldPort.initial port.rx with tx := port.tx.abort }

/-- The Trunk Port after a FULL reset: its receiver kept, a frame on the wire ended early (R137). -/
def TrunkPort.full (t : TrunkPort) : TrunkPort := { TrunkPort.initial t.rx with tx := t.tx.abort }

/-- A FULL reset by the RESET request with this tag (R151). -/
def State.fullReset (s : State) (tag : Byte) : State :=
  { s with
    ports := tabulate fun p => (look s.ports p).full
    classifier := Classifier.initial
    table := TableStore.initial
    conditions := Vector.replicate 32 ConditionSlot.initial
    levelUnit := LevelUnit.initial
    service := ServiceUnit.initial
    trunk := s.trunk.full
    notices := NoticeUnit.initial .full tag
    management := Management.initial }

/-! ### The RESET request -/

/-- `scope` of TRAFFIC (section 10.5.1). -/
def scopeTraffic : Byte := 1

/-- `scope` of FULL (section 10.5.1). -/
def scopeFull : Byte := 2

/-- The request is a RESET of the right length with this scope. -/
def isReset (scope : Byte) (q : QueuedRequest) : Bool := q.op == opReset && q.operands == [scope]

/-- A RESET that names no scope: MALFORMED by its length, or else ILLEGAL (R144, R150). -/
def State.answerBadReset (s : State) (q : QueuedRequest) : State :=
  if q.operands.length = 1 then s.answer q .illegal [] else s.answer q .malformed []

/-- RESET_TRAFFIC (R150). -/
def execResetTraffic (s : State) : Host.Outcome State Fault Refusal :=
  whenRunning s fun s => s.executeHead (fun q => q.op == opReset && !isReset scopeFull q) fun q s =>
    if isReset scopeTraffic q then s.trafficReset.answer q .ok [] else s.answerBadReset q

/-- RESET_FULL (R151). -/
def execResetFull (s : State) : Host.Outcome State Fault Refusal :=
  whenRunning s fun s => s.executeHead (fun q => q.op == opReset && !isReset scopeTraffic q) fun q s =>
    if isReset scopeFull q then s.fullReset q.tag else s.answerBadReset q

end Sys2Proof.Machine
end

