-- ==== Sys2Proof/Machine/Dispatch.lean ====
section
/-!
DEFINITION. One arm per command: the direct call of its meaning.
-/

namespace Sys2Proof.Machine

def exec (i : Instr) (s : State) : Host.Outcome State Fault Refusal :=
  match i with
  | .resetNLow => Sys2Proof.Machine.execResetNLow s
  | .resetNRelease lines => Sys2Proof.Machine.execResetNRelease lines s
  | .lineComesLive link => Sys2Proof.Machine.execLineComesLive link s
  | .lineGoesDead link => Sys2Proof.Machine.execLineGoesDead link s
  | .event port node code cond spare seq payload => Sys2Proof.Machine.execEvent port node code cond spare seq payload s
  | .badFrame port symbols => Sys2Proof.Machine.execBadFrame port symbols s
  | .badTrunkFrame symbols => Sys2Proof.Machine.execBadTrunkFrame symbols s
  | .complete ticket outcome => Sys2Proof.Machine.execComplete ticket outcome s
  | .completeTop outcome => Sys2Proof.Machine.execCompleteTop outcome s
  | .pause duration => Sys2Proof.Machine.execPause duration s
  | .resume => Sys2Proof.Machine.execResume s
  | .pauseTimerExpires => Sys2Proof.Machine.execPauseTimerExpires s
  | .request tag op operands => Sys2Proof.Machine.execRequest tag op operands s
  | .classificationStart => Sys2Proof.Machine.execClassificationStart s
  | .classificationCompletes => Sys2Proof.Machine.execClassificationCompletes s
  | .swapTakesEffect => Sys2Proof.Machine.execSwapTakesEffect s
  | .copyStep => Sys2Proof.Machine.execCopyStep s
  | .copyCompletes => Sys2Proof.Machine.execCopyCompletes s
  | .releaseTransmissionStart port => Sys2Proof.Machine.execReleaseTransmissionStart port s
  | .releaseCompletes port => Sys2Proof.Machine.execReleaseCompletes port s
  | .replyGrant => Sys2Proof.Machine.execReplyGrant s
  | .noticeGrant => Sys2Proof.Machine.execNoticeGrant s
  | .resendGrant => Sys2Proof.Machine.execResendGrant s
  | .dispatchGrant => Sys2Proof.Machine.execDispatchGrant s
  | .replyCompletes => Sys2Proof.Machine.execReplyCompletes s
  | .noticeCompletes => Sys2Proof.Machine.execNoticeCompletes s
  | .firstTransmissionEnds => Sys2Proof.Machine.execFirstTransmissionEnds s
  | .resendEnds => Sys2Proof.Machine.execResendEnds s
  | .serviceTimerExpires level => Sys2Proof.Machine.execServiceTimerExpires level s
  | .ident => Sys2Proof.Machine.execIdent s
  | .readEntry => Sys2Proof.Machine.execReadEntry s
  | .writeEntry => Sys2Proof.Machine.execWriteEntry s
  | .clearEntry => Sys2Proof.Machine.execClearEntry s
  | .writeDefault => Sys2Proof.Machine.execWriteDefault s
  | .copyBank => Sys2Proof.Machine.execCopyBank s
  | .swapBanks => Sys2Proof.Machine.execSwapBanks s
  | .readLevel => Sys2Proof.Machine.execReadLevel s
  | .writeLevel => Sys2Proof.Machine.execWriteLevel s
  | .setOrder => Sys2Proof.Machine.execSetOrder s
  | .maskLevels => Sys2Proof.Machine.execMaskLevels s
  | .flushLevel => Sys2Proof.Machine.execFlushLevel s
  | .readPort => Sys2Proof.Machine.execReadPort s
  | .writePort => Sys2Proof.Machine.execWritePort s
  | .readTrunk => Sys2Proof.Machine.execReadTrunk s
  | .readCondition => Sys2Proof.Machine.execReadCondition s
  | .clearCondition => Sys2Proof.Machine.execClearCondition s
  | .inject => Sys2Proof.Machine.execInject s
  | .readPool => Sys2Proof.Machine.execReadPool s
  | .noticeEnable => Sys2Proof.Machine.execNoticeEnable s
  | .resetTraffic => Sys2Proof.Machine.execResetTraffic s
  | .resetFull => Sys2Proof.Machine.execResetFull s
  | .unsupportedOp => Sys2Proof.Machine.execUnsupportedOp s

end Sys2Proof.Machine
end

