-- ==== Sys2Proof/Safety.lean ====
section
/-!
DEFINITION. What must hold of the part in every state: for each unit, and for the places where units hold the same thing, a
predicate that every step is claimed to keep. Each names the rules it comes from.
-/

namespace Sys2Proof.Machine

/-- What the trunk transmitter is sending, if anything. -/
def State.onWire (s : State) : Option GrantedFrame := s.trunk.tx.sending.map TrunkFrame.granted

/-! ### Field Port Units -/

/-- A port's queues keep their bounds (R16, R19); a DISABLED port holds nothing (R24, R25); only a LIVE line is sent on (R10),
and nothing is sent while RESET_N is held low (R26); the marked head is the request on the wire (R20), unless RESET_N has cut
the frame off. -/
abbrev FieldPort.Kept (port : FieldPort) (held : Bool) : Prop :=
  port.received.length ≤ Config.receiveCapacity ∧ port.releases.length ≤ Config.releaseCapacity ∧
  (port.enabled = false →
    port.received = [] ∧ port.releases = [] ∧ port.headMarked = false ∧ port.tx.sending = none) ∧
  (port.tx.sending.isSome → port.rx.live ∧ held = false) ∧
  (port.headMarked = true → port.releases ≠ [] ∧
    (held = false → port.tx.sending = port.releases.head?.map releaseFrame))

/-- Every port is as its chapter says. -/
abbrev State.PortsKept (s : State) : Prop := ∀ p, (look s.ports p).Kept s.resetHeld

/-! ### Table Store and Classifier -/

/-- No bit of a value is set where its mask is clear, and a TRACK entry's `conds` holds no PULSE (R41). -/
abbrev Definition.Legal (d : Definition) : Prop :=
  d.nodeValue &&& ~~~d.nodeMask = 0 ∧ d.codeValue &&& ~~~d.codeMask = 0 ∧
    (d.action.isTrack → member d.conds (condBit .pulse) = false)

/-- Every valid entry of a bank holds a legal definition. -/
abbrev Bank.Legal (b : Bank) : Prop := ∀ i, ∀ e ∈ look b.entries i, e.definition.Legal

/-- Every valid entry of both banks holds a legal definition (R33, R41). -/
abbrev State.DefinitionsLegal (s : State) : Prop := s.table.bankA.Legal ∧ s.table.bankB.Legal

/-- The entries a copy has already replaced (R78). -/
def CopyProgress.passed : CopyProgress → EntryId → Bool
  | .entry i, j => decide (j < i)
  | .defaultRecord, _ => true
  | .finished, _ => true

/-- The definition of an entry with no hit counted. -/
def uncounted (e : Entry) : Entry := { e with hits := 0 }

/-- What a copy has replaced so far is an image of the ACTIVE bank with all counts 0 (R78). -/
abbrev TableStore.CopyIsImage (t : TableStore) (progress : CopyProgress) : Prop :=
  (∀ j, progress.passed j = true →
    look (t.bank t.standby).entries j = (look (t.bank t.active).entries j).map uncounted) ∧
  (progress = .finished →
    (t.bank t.standby).defaultRecord = { (t.bank t.active).defaultRecord with hits := 0 })

/-- The copy progress while COPYING. -/
def BankOperation.progress : BankOperation → Option CopyProgress
  | .copying progress _ => some progress
  | .idle => none
  | .swapPending _ => none

/-- The bank-operation state is SWAP-PENDING. -/
def BankOperation.isSwapPending : BankOperation → Bool
  | .swapPending _ => true
  | .idle => false
  | .copying _ _ => false

/-- The event in flight has noted the bank that is ACTIVE and the generation in force (R52, R56); a swap is pending only while
an event is in flight (R79, R80); a copy has made an image as far as it has come (R78). -/
abbrev State.TableKept (s : State) : Prop :=
  (∀ f ∈ s.classifier.inFlight, f.bank = s.table.active ∧ f.generation = s.table.generation) ∧
  (s.table.operation.isSwapPending = true → s.classifier.inFlight.isSome) ∧
  (∀ progress ∈ s.table.operation.progress, s.table.CopyIsImage progress)

/-! ### Level Unit -/

/-- A level's settings lie in their ranges (R88), and its queue keeps the `limit` and the high-water count (R87). -/
abbrev Level.Kept (level : Level) : Prop :=
  1 ≤ level.settings.limit.toNat ∧ level.settings.limit.toNat ≤ 32 ∧ level.settings.retries.toNat ≤ 7 ∧
  level.queue.length ≤ level.settings.limit.toNat ∧ level.queue.length ≤ level.counts.highWater.toNat

/-- Every level is as its chapter says. -/
abbrev State.LevelsKept (s : State) : Prop := ∀ l, (s.levelAt l).Kept

/-- A record of a level: `repeat` is at least 1, `payload` at most 8 bytes, and only a posted record may coalesce (R86). -/
abbrev Record.Kept (r : Record) (l : LevelId) : Prop :=
  r.level = l ∧ r.repeats ≠ 0 ∧ r.payload.length ≤ 8 ∧ (r.mayCoalesce = true → r.kind = .posted)

/-- An event's payload is at most 8 bytes (section 1.7). -/
abbrev Event.Kept (e : Event) : Prop := e.payload.length ≤ 8

/-- Every record is pending at its own level, or held and in service there, or posted and in transmission (R85, R86); every
event that waits has a payload of at most 8 bytes. -/
abbrev State.RecordsKept (s : State) : Prop :=
  (∀ l, ∀ r ∈ (s.levelAt l).queue, r.Kept l) ∧
  (∀ l, ∀ r ∈ s.inServiceAt l, r.record.Kept l ∧ r.record.kind = .held) ∧
  (∀ r ∈ s.levelUnit.inTransmission, r.Kept r.level ∧ r.kind = .posted) ∧
  (∀ p, ∀ e ∈ (look s.ports p).received, e.Kept) ∧
  (∀ f ∈ s.classifier.inFlight, f.event.Kept) ∧ (∀ i ∈ s.classifier.injection, i.event.Kept)

/-- The granted frame is the UP-EVENT of a posted record. -/
def GrantedFrame.isPosted : GrantedFrame → Bool
  | .dispatch _ none => true
  | .dispatch _ (some _) => false
  | .reply => false
  | .notice _ _ => false
  | .resend _ _ => false

/-- The pool has no more than 128 records (R85), the low-water mark is no greater than the number of free records (R93), and a
posted record is in transmission only while its frame is on the wire, unless RESET_N has cut the frame off. -/
abbrev State.PoolKept (s : State) : Prop :=
  s.usedRecords ≤ Config.poolSize ∧ s.levelUnit.lowWater.toNat ≤ s.freeRecords ∧
  (s.resetHeld = false → s.levelUnit.inTransmission.isSome → s.onWire.any GrantedFrame.isPosted = true)

/-- Every record that is pending or in service, level by level. -/
def State.waitingRecords (s : State) : List Record :=
  (List.finRange 16).flatMap fun l => (s.levelAt l).queue ++ ((s.inServiceAt l).map ServiceRecord.record).toList

/-- No two held records that are pending or in service have equal `origin`, `node`, `code` and `seq` (R91); only posted records
are in transmission (R85). -/
abbrev State.NoHeldTwice (s : State) : Prop :=
  (∀ r ∈ s.levelUnit.inTransmission, r.kind = .posted) ∧
  (s.waitingRecords.filter (·.kind == .held)).Pairwise fun a b => duplicates a b = false

/-! ### Service Unit -/

/-- The `attempt` that goes with each sub-state (R109, R113 to R115). -/
def SubState.attemptOk (phase : SubState) (attempt : Nat) : Bool :=
  match phase with
  | .dispatching => attempt == 1
  | .awaiting _ => decide (1 ≤ attempt ∧ attempt ≤ 8)
  | .resendWait => decide (1 ≤ attempt ∧ attempt ≤ 7)
  | .resending => decide (2 ≤ attempt ∧ attempt ≤ 8)

/-- A record in service at a level has a ticket from 1 to 255 and an `attempt` from 1 to 8, and its frame is on the wire in
DISPATCHING and RESENDING (R103), unless RESET_N has cut it off. -/
abbrev State.ServiceRecordKept (s : State) (l : LevelId) (r : ServiceRecord) : Prop :=
  r.ticket ≠ 0 ∧ r.phase.attemptOk r.attempt.toNat = true ∧
  (s.resetHeld = false → r.phase = .dispatching → s.onWire = some (.dispatch l (some r.ticket))) ∧
  (s.resetHeld = false → r.phase = .resending → s.onWire = some (.resend l r.ticket))

/-- The tickets of the records in service are pairwise distinct (R103). -/
abbrev State.TicketsDistinct (s : State) : Prop :=
  ∀ l m, ∀ r ∈ s.inServiceAt l, ∀ q ∈ s.inServiceAt m, r.ticket = q.ticket → l = m

/-- The in-service table is as its chapter says; no level allows more than 8 transmissions (R88, R113). -/
abbrev State.ServiceKept (s : State) : Prop :=
  s.TicketsDistinct ∧ (∀ l, ∀ r ∈ s.inServiceAt l, s.ServiceRecordKept l r) ∧
  (∀ l, (s.levelAt l).settings.retries.toNat ≤ 7)

/-! ### Trunk Port and Notice Unit -/

/-- A NOTICE on the wire is of a kind that is on, or is marked as cancelled (R135). -/
def GrantedFrame.noticeOk (enables : BitVec 5) : GrantedFrame → Bool
  | .notice frame cancelled => kindOn enables frame.kind || cancelled
  | .reply => true
  | .resend _ _ => true
  | .dispatch _ _ => true

/-- The granted frame is a NOTICE. -/
def GrantedFrame.isNotice : GrantedFrame → Bool
  | .notice _ _ => true
  | .reply => false
  | .resend _ _ => false
  | .dispatch _ _ => false

/-- Frames go out only while the link is UP (R10, R130) and RESET_N is not held low (R136); a notice is returned only while
none is on the wire (R134); a kind that is off has neither latch nor returned notice (R135); a latched count is at least 1
(R132). -/
abbrev State.TrunkKept (s : State) : Prop :=
  (s.onWire.isSome → s.linkUp = true ∧ s.resetHeld = false) ∧
  (∀ g ∈ s.onWire, g.noticeOk s.notices.enables = true ∧ (g.isNotice = true → s.notices.returned = none)) ∧
  (∀ f ∈ s.notices.returned, kindOn s.notices.enables f.kind = true) ∧
  (∀ kind ∈ noticeOrder, s.notices.latched kind = true → kindOn s.notices.enables kind = true) ∧
  (∀ x ∈ s.notices.lapse, x.count ≠ 0) ∧ (∀ n ∈ s.notices.pool, n ≠ 0)

/-! ### Management Unit -/

/-- The pending bank-operation reply (R77, R79). -/
def BankOperation.reply : BankOperation → Option PendingReply
  | .copying _ r => some r
  | .swapPending r => some r
  | .idle => none

/-- The replies that come later: of a bank operation, of the INJECT in flight, of the INJECT in the slot (R142). -/
def State.awaitedReplies (s : State) : List PendingReply :=
  s.table.operation.reply.toList ++ (s.classifier.inFlight.bind FlightEvent.reply).toList ++
    (s.classifier.injection.map InjectedEvent.reply).toList

/-- The reply slot of a produced reply. -/
def ReplySource.replySlot? : ReplySource → Option ReplySlotId
  | .reply i => some i
  | .refusal _ => none

/-- The refusal slot of a produced reply. -/
def ReplySource.refusalSlot? : ReplySource → Option RefusalSlotId
  | .refusal i => some i
  | .reply _ => none

/-- The reply slots in use: by queued requests, by awaited replies, by produced replies. -/
def State.replySlotsUsed (s : State) : List ReplySlotId :=
  s.management.queue.map QueuedRequest.slot ++ s.awaitedReplies.map PendingReply.slot ++
    s.trunk.replies.filterMap (·.source.replySlot?)

/-- The refusal slots in use by produced refusals. -/
def State.refusalSlotsUsed (s : State) : List RefusalSlotId := s.trunk.replies.filterMap (·.source.refusalSlot?)

/-- What a slot holds for a produced reply (R141, R142). -/
def Management.holds (m : Management) (r : ProducedReply) : Bool :=
  match r.source with
  | .reply i => look m.slots i == some { tag := r.reply.tag, op := r.reply.op, progress := .replyReady }
  | .refusal i => look m.refusals i == some r.reply

/-- Every held slot stands for exactly one request in exactly one progress state (R139): QUEUED in the request queue,
AWAITING-COMPLETION in the unit that does the work, REPLY-READY in the reply class; and so for the refusal slots (R141). -/
abbrev State.SlotsKept (s : State) : Prop :=
  s.replySlotsUsed.Nodup ∧ s.refusalSlotsUsed.Nodup ∧
  (∀ i, (look s.management.slots i).isSome → i ∈ s.replySlotsUsed) ∧
  (∀ i, (look s.management.refusals i).isSome → i ∈ s.refusalSlotsUsed) ∧
  (∀ q ∈ s.management.queue,
    look s.management.slots q.slot = some { tag := q.tag, op := q.op, progress := .queued }) ∧
  (∀ r ∈ s.awaitedReplies, (look s.management.slots r.slot).map (fun x => (x.tag, x.progress)) =
    some (r.tag, .awaitingCompletion)) ∧
  (∀ r ∈ s.trunk.replies, s.management.holds r = true) ∧
  (s.onWire = some .reply → s.trunk.replies ≠ [])

/-- Nothing goes ahead of a pin reset's RESTARTED notice: while it is latched the link is DOWN, unless RESET_N is held low, no
frame is on the wire, no notice is returned, the notice counter stands at 0, and no request is held and no reply ready or awaited
(R136, R153, R156). -/
abbrev State.RestartedGoesFirst (s : State) : Prop :=
  s.notices.powerWaits = true →
    (s.resetHeld = false → s.linkUp = false) ∧ s.trunk.tx.sending = none ∧ s.notices.returned = none ∧ s.notices.nseq = 0 ∧
    s.management.queue = [] ∧ s.trunk.replies = [] ∧ s.awaitedReplies = []

/-- No step stops: there is no fault, and every command has its meaning (notes/assumptions/29.md). -/
abbrev AnswersNext (s : State) : Prop := ∃ t, step s = .next t

end Sys2Proof.Machine
end

