-- ==== Sys2Proof/Certificates/Slice0/Obligations.lean ====
section
/-!
DEFINITION. The statements about the machine, from the numbered rules of spec/. A next state is written as a record update of
the state before it, so that everything the update does not name is unchanged.
-/

namespace Sys2Proof.Machine

/-! ### Words the statements use -/

/-- RESET_N is not held low. -/
abbrev State.Running (s : State) : Prop := s.resetHeld = false

/-- The request `q` is at the head of the request queue, `rest` behind it. -/
abbrev State.Head (s : State) (q : QueuedRequest) (rest : List QueuedRequest) : Prop := s.management.queue = q :: rest

/-- The head request has left the queue, its reply is at the tail of the reply class and its slot is REPLY-READY (R142). -/
def State.answered (s : State) (q : QueuedRequest) (rest : List QueuedRequest) (status : Status) (data : List Byte) : State :=
  { s with
    management := { s.management with
      queue := rest
      slots := put s.management.slots q.slot (some { tag := q.tag, op := q.op, progress := .replyReady }) }
    trunk := { s.trunk with
      replies := s.trunk.replies ++
        [{ source := .reply q.slot, reply := { tag := q.tag, op := q.op, status := status, data := data } }] } }

/-- The head request has left the queue and its slot is AWAITING-COMPLETION (R142). -/
def State.deferred (s : State) (q : QueuedRequest) (rest : List QueuedRequest) : State :=
  { s with
    management := { s.management with
      queue := rest
      slots := put s.management.slots q.slot (some { tag := q.tag, op := q.op, progress := .awaitingCompletion }) } }

/-- A reply that came later is in its slot and at the tail of the reply class (R142, R143). -/
def State.repliedLater (s : State) (r : PendingReply) (op : Byte) (status : Status) (data : List Byte) : State :=
  { s with
    management := { s.management with
      slots := put s.management.slots r.slot (some { tag := r.tag, op := op, progress := .replyReady }) }
    trunk := { s.trunk with
      replies := s.trunk.replies ++
        [{ source := .reply r.slot, reply := { tag := r.tag, op := op, status := status, data := data } }] } }

/-- The roles exchanged and the generation raised, modulo 256 (R80). -/
def TableStore.exchanged (t : TableStore) : TableStore :=
  { t with active := if t.active = .a then .b else .a, generation := t.generation + 1, operation := .idle }

/-- The code of a bank's letter (section 10.5.1). -/
def letter (id : BankId) : Byte := if id = .a then 0 else 1

/-- The port after a pin reset, with its receiver (R27). -/
def pinPort (rx : Receiver) : FieldPort :=
  { enabled := true, noticeEnabled := true, rx := rx, received := [], releases := [], headMarked := false, conditions := 0,
    tx := { sending := none, closing := .idle } }

/-- A cleared bank: no valid entry, a default record of DISCARD, level 0, hits 0 (R45). -/
def pinBank : Bank := { entries := tabulate fun _ => none, defaultRecord := { action := .discard, level := 0, hits := 0 } }

/-- A condition slot in its cleared form (R62). -/
def clearedSlot : ConditionSlot := { state := .unknown, last := none, changes := 0, absorbed := 0 }

/-- A level with the default settings, unmasked, its queue empty and its counts 0 (R88, R102). -/
def pinLevel : Level :=
  { queue := [], settings := { limit := 8, policy := .dropNew, coalesce := false, timeout := 100, retries := 2 },
    masked := false,
    counts := { dispatched := 0, done := 0, rejected := 0, lapsed := 0, dropped := 0, flushed := 0, highWater := 0 } }

/-- The Notice Unit after a reset: RESTARTED latched, nothing else, every kind on, the counter at 0 (R136, R137). -/
def pinNotices (cause : RestartCause) (tag : Byte) : NoticeUnit :=
  { restarted := some { cause := cause, tag := tag }, port := none, level := none, lapse := none, pool := none, trunk := none,
    returned := none, enables := 31, nseq := 0 }

/-- The RESTARTED notice of a pin reset: `cause` POWER, `tag` 0, `nseq` 0 (R132, R156). -/
def powerNotice : NoticeFrame := { kind := .restarted, nseq := 0, data := [1, 0] }

/-- The state that the chapters give for the release of RESET_N (R27, R45, R61, R71, R102, R123, R136, R152): RESTARTED is latched,
or, if the trunk link is UP, granted at once (R156). -/
def pinReset (lines : LineJudgement) (waiting : List Instr) : State :=
  { resetHeld := false
    ports := tabulate fun p => pinPort (if look lines.fields p then .hunt else .dead)
    classifier := { inFlight := none, pointer := 0, injection := none }
    table := { bankA := pinBank, bankB := pinBank, active := .a, generation := 0, operation := .idle }
    conditions := tabulate fun _ => clearedSlot
    levelUnit := { levels := tabulate fun _ => pinLevel, inTransmission := none, lowWater := 128, refusals := 0 }
    service := { mode := .fixed, lowest := 0, nesting := .nested, inService := tabulate fun _ => none, ticketCounter := 0 }
    trunk := { rx := if lines.trunk then .hunt else .dead, conditions := 0, strays := 0, pause := .running,
               tx := { sending := if lines.trunk
                         then some { granted := .notice powerNotice false, bytes := noticeFrame powerNotice } else none
                       closing := .idle }
               replies := [] }
    notices := if lines.trunk then { pinNotices .power 0 with restarted := none, nseq := 1 } else pinNotices .power 0
    management := { slots := tabulate fun _ => none, queue := [], refusals := tabulate fun _ => none }
    pending := waiting }

/-- A transmitter whose frame, if it is sending one, ends with the symbol given (R11, R12). -/
def FieldTransmitter.endedWith (tx : FieldTransmitter) (x : Symbol) : FieldTransmitter :=
  if tx.sending = none then tx else { sending := none, closing := x }

/-- The trunk transmitter, likewise. -/
def TrunkTransmitter.endedWith (tx : TrunkTransmitter) (x : Symbol) : TrunkTransmitter :=
  if tx.sending = none then tx else { sending := none, closing := x }

/-- What a receiver has gathered once the bytes given have arrived after a start marker (R3). -/
def gathered (k : LinkKind) (bytes : List Byte) : RxFrame := bytes.foldl (RxFrame.push k) RxFrame.empty

/-- A field port's receiver takes one symbol and hands its verdict over (R3, R4). -/
def State.fieldSymbol (s : State) (p : PortId) (x : Symbol) : State :=
  (s.setPort p { look s.ports p with rx := ((look s.ports p).rx.take .field x).1 }).portVerdict? p
    ((look s.ports p).rx.take .field x).2

/-- The trunk receiver takes one symbol and hands its verdict over (R3, R4). -/
def State.trunkSymbol (s : State) (x : Symbol) : State :=
  (s.setTrunk { s.trunk with rx := (s.trunk.rx.take .trunk x).1 }).trunkVerdict? (s.trunk.rx.take .trunk x).2

/-- A level is a candidate for dispatch (R107). -/
def State.Candidate (s : State) (l : LevelId) : Prop :=
  (s.levelAt l).masked = false ∧
  (∃ r rest, (s.levelAt l).queue = r :: rest ∧ (r.kind = .posted ∨ s.inServiceAt l = none)) ∧
  (s.service.nesting = .nested → ∀ m, (s.inServiceAt m).isSome → ranksAbove s.service.lowest l m = true)

/-- Among the levels that pass a test, `l` ranks highest (R104). -/
def State.Highest (s : State) (test : LevelId → Prop) (l : LevelId) : Prop :=
  test l ∧ ∀ m, test m → m ≠ l → ranksAbove s.service.lowest l m = true

/-- The transmitter is IDLE, the link UP, no reply and no notice is ready and the trunk is RUNNING (R129, R130). -/
def State.EventsMayGo (s : State) : Prop :=
  s.trunk.rx ≠ .dead ∧ s.trunk.tx.sending = none ∧ s.trunk.replies = [] ∧ s.notices.returned = none ∧
  (∀ kind, s.notices.latched kind = false) ∧ s.trunk.pause = .running

/-- The frame is given to the trunk transmitter, which sends from its copy (R10). -/
def State.onTrunk (s : State) (granted : GrantedFrame) (bytes : List Byte) : State :=
  { s with trunk := { s.trunk with tx := { s.trunk.tx with sending := some { granted := granted, bytes := bytes } } } }

/-- The codes of a port's state: DISABLED, DOWN, UP (section 10.5.1). -/
def FieldPort.stateByte (port : FieldPort) : Byte :=
  if port.enabled = false then 0 else if port.rx = .dead then 1 else 2

/-- The codes of the service sub-states (section 10.5.1). -/
def SubState.byte : SubState → Byte
  | .dispatching => 1
  | .awaiting _ => 2
  | .resendWait => 3
  | .resending => 4

/-- The operations of a fixed operand length, each with its command, code and length (section 10.5). -/
def fixedOperations : List (Instr × Byte × Nat) :=
  [(.ident, 0x01, 0), (.readEntry, 0x02, 3), (.writeEntry, 0x03, 12), (.clearEntry, 0x04, 1), (.writeDefault, 0x05, 2),
   (.copyBank, 0x06, 0), (.swapBanks, 0x07, 0), (.readLevel, 0x08, 2), (.writeLevel, 0x09, 6), (.setOrder, 0x0A, 3)] ++
  [(.maskLevels, 0x0B, 2), (.flushLevel, 0x0C, 1), (.readPort, 0x0D, 1), (.writePort, 0x0E, 3), (.readTrunk, 0x0F, 0),
   (.readCondition, 0x10, 1), (.clearCondition, 0x11, 1), (.readPool, 0x13, 0), (.noticeEnable, 0x14, 1),
   (.resetTraffic, 0x15, 1), (.resetFull, 0x15, 1)]

/-- A transmission on the trunk has ended: the transmitter has sent an end marker and is IDLE (R10). -/
def State.trunkIdle (s : State) : State :=
  { s with trunk := { s.trunk with tx := { sending := none, closing := .endMarker } } }

/-- The commands are executed one after another, from `states 0` on. -/
def Run (commands : Nat → Instr) (states : Nat → State) : Prop :=
  ∀ i, exec (commands i) (states i) = .next (states (i + 1))

/-- The command at `i` starts a classification: the Classifier is IDLE before it and CLASSIFYING after it (R48, R51). -/
def startsAt (states : Nat → State) (i : Nat) : Bool :=
  (states i).classifier.inFlight.isNone && (states (i + 1)).classifier.inFlight.isSome

/-- The command is the release of RESET_N or a RESET request. -/
def Resets (c : Instr) : Prop := (∃ lines, c = .resetNRelease lines) ∨ c = .resetTraffic ∨ c = .resetFull

end Sys2Proof.Machine

open Sys2Proof Sys2Proof.Machine

/-! ### The step, the pins, the lines -/

/-- A step takes the command at the front of the queue and runs it on the state with the rest of the queue. -/
def Obligations.StepTakesTheFrontCommand : Prop :=
  ∀ (c : Instr) (s : State), step { s with pending := c :: s.pending } = exec c s

/-- Every command answers a next state and leaves the waiting commands alone: the model's reading that nothing stops it
(notes/assumptions/29.md), a command that does not occur, or that the head request does not fit, changing nothing
(notes/assumptions/3.md, notes/assumptions/6.md); with none waiting a step changes nothing (that it idles is the model's choice,
notes/assumptions/2.md). -/
def Obligations.EveryStepAnswersNext : Prop :=
  (∀ (c : Instr) (s : State), ∃ t, exec c s = .next t ∧ t.pending = s.pending) ∧
  (∀ s : State, s.pending = [] → step s = .next s)

/-- RESET_N falling cuts every frame off and its release gives the pin-reset state, with the RESTARTED notice on the wire if the
trunk link is UP and latched if it is DOWN (R136, R155, R156); a release of a pin that was not held low
changes nothing (that case is the model's, notes/assumptions/11.md; what is kept while the pin is low is notes/assumptions/12.md). -/
def Obligations.PinResetGivesTheInitialState : Prop :=
  (∀ s : State, exec .resetNLow s = .next { s with
    resetHeld := true
    ports := tabulate fun p => { look s.ports p with
      rx := if (look s.ports p).rx = .dead then .dead else .hunt
      tx := (look s.ports p).tx.endedWith .idle }
    trunk := { s.trunk with
      rx := if s.trunk.rx = .dead then .dead else .hunt
      tx := s.trunk.tx.endedWith .idle } }) ∧
  (∀ (lines : LineJudgement) (s : State), s.resetHeld = true →
    exec (.resetNRelease lines) s = .next (pinReset lines s.pending)) ∧
  (∀ (lines : LineJudgement) (s : State), s.Running → exec (.resetNRelease lines) s = .next s)

/-- While RESET_N is held low, the receivers judge their lines and nothing else happens (R155). -/
def Obligations.NothingRunsWhileResetIsHeld : Prop :=
  (∀ (c : Instr) (s : State), s.resetHeld = true → c ≠ .resetNLow → (∀ lines, c ≠ .resetNRelease lines) →
    (∀ link, c ≠ .lineComesLive link) → (∀ link, c ≠ .lineGoesDead link) → exec c s = .next s) ∧
  (∀ (p : PortId) (s : State), s.resetHeld = true →
    exec (.lineComesLive (.field p)) s = .next { s with ports := put s.ports p { look s.ports p with
      rx := if (look s.ports p).rx = .dead then .hunt else (look s.ports p).rx } } ∧
    exec (.lineGoesDead (.field p)) s =
      .next { s with ports := put s.ports p { look s.ports p with rx := .dead } }) ∧
  (∀ s : State, s.resetHeld = true →
    exec (.lineComesLive .trunk) s = .next { s with trunk := { s.trunk with
      rx := if s.trunk.rx = .dead then .hunt else s.trunk.rx } } ∧
    exec (.lineGoesDead .trunk) s = .next { s with trunk := { s.trunk with rx := .dead } })

/-- The reset state is that of a release of RESET_N on lines that show no signal (the manual takes the lines as they are, that they
are DEAD is the model's choice, notes/assumptions/10.md), and it is within every bound that the last statements say each step
keeps. -/
def Obligations.ResetStateIsThePinResetState : Prop :=
  (State.reset = pinReset { fields := Vector.replicate 6 false, trunk := false } []) ∧
  (State.reset.PortsKept ∧ State.reset.DefinitionsLegal ∧ State.reset.TableKept ∧ State.reset.LevelsKept ∧
  State.reset.RecordsKept ∧ State.reset.PoolKept ∧ State.reset.NoHeldTwice ∧ State.reset.ServiceKept ∧
  State.reset.TrunkKept ∧ State.reset.SlotsKept ∧ State.reset.RestartedGoesFirst)

/-- A field line that comes live or goes dead (R2, R3, R11, R14, R22); an event that does not occur in the receiver's state
changes nothing (notes/assumptions/3.md). -/
def Obligations.FieldLineEventsMoveThePort : Prop :=
  (∀ (p : PortId) (s : State), s.Running → (look s.ports p).rx = .dead →
    exec (.lineComesLive (.field p)) s = .next
      (if (look s.ports p).enabled = true
        then (s.setPort p { look s.ports p with rx := .hunt }).raisePort p .linkChange
        else s.setPort p { look s.ports p with rx := .hunt })) ∧
  (∀ (p : PortId) (s : State), s.Running → (look s.ports p).rx ≠ .dead →
    exec (.lineComesLive (.field p)) s = .next s) ∧
  (∀ (p : PortId) (s : State), s.Running → (look s.ports p).rx = .dead →
    exec (.lineGoesDead (.field p)) s = .next s) ∧
  (∀ (p : PortId) (s now : State), s.Running → (look s.ports p).rx ≠ .dead →
    now = s.setPort p { look s.ports p with
      rx := .dead, headMarked := false, tx := (look s.ports p).tx.endedWith .abort } →
    ((look s.ports p).enabled = false → exec (.lineGoesDead (.field p)) s = .next now) ∧
    ((look s.ports p).enabled = true → (look s.ports p).rx = .hunt →
      exec (.lineGoesDead (.field p)) s = .next (now.raisePort p .linkChange)) ∧
    (∀ frame, (look s.ports p).enabled = true → (look s.ports p).rx = .inFrame frame →
      exec (.lineGoesDead (.field p)) s = .next ((now.raisePort p .framing).raisePort p .linkChange)))

/-- The trunk line comes live, which grants the RESTARTED notice of a pin reset ahead of the TRUNK notice that the change raises
(R136, R156), or goes dead, and each class of frame on the wire is aborted its own way (R11, R96, R111, R115, R124, R131, R134,
R135). The model's choices: a line event that does not occur in the receiver's state changes nothing (notes/assumptions/3.md), and a
notice marked as cancelled is discarded at its abort (notes/assumptions/20.md). -/
def Obligations.TrunkLineEventsAbortTheFrame : Prop :=
  (∀ s : State, s.Running → s.trunk.rx = .dead → exec (.lineGoesDead .trunk) s = .next s) ∧
  (∀ s : State, s.Running → s.trunk.rx = .dead →
    ((∀ x, s.notices.restarted = some x → x.cause ≠ .power) ∨ s.trunk.tx.sending ≠ none) →
    exec (.lineComesLive .trunk) s = .next ((s.setTrunk { s.trunk with rx := .hunt }).raiseTrunk .linkChange)) ∧
  (∀ (s : State) (x : Restarted) (f : NoticeFrame) (n : NoticeUnit), s.Running → s.trunk.rx = .dead →
    s.notices.restarted = some x → x.cause = .power → s.trunk.tx.sending = none →
    (s.notices.returned = none ∧ f = { kind := .restarted, nseq := s.notices.nseq, data := [1, x.tag] } ∧
        n = { s.notices with restarted := none, nseq := s.notices.nseq + 1 } ∨
      s.notices.returned = some f ∧ n = { s.notices with returned := none }) →
    exec (.lineComesLive .trunk) s = .next ((({ s with trunk := { s.trunk with rx := .hunt }, notices := n } : State).onTrunk
      (.notice f false) (noticeFrame f)).raiseTrunk .linkChange)) ∧
  (∀ s : State, s.Running → s.trunk.rx ≠ .dead → exec (.lineComesLive .trunk) s = .next s) ∧
  (∀ s down now : State, s.Running → s.trunk.rx ≠ .dead →
    down = (if s.trunk.rx = .hunt then (s.setTrunk { s.trunk with rx := .dead }).raiseTrunk .linkChange
      else ((s.setTrunk { s.trunk with rx := .dead }).raiseTrunk .framing).raiseTrunk .linkChange) →
    now = down.setTrunk { down.trunk with tx := { sending := none, closing := .abort } } →
    (s.onWire = none → exec (.lineGoesDead .trunk) s = .next down) ∧
    (s.onWire = some .reply → exec (.lineGoesDead .trunk) s = .next now) ∧
    (∀ frame, s.onWire = some (.notice frame true) → exec (.lineGoesDead .trunk) s = .next now) ∧
    (∀ frame, s.onWire = some (.notice frame false) →
      exec (.lineGoesDead .trunk) s = .next { now with notices := { now.notices with returned := some frame } }) ∧
    (∀ l r, s.onWire = some (.resend l r.ticket) → s.inServiceAt l = some r → r.phase = .resending →
      exec (.lineGoesDead .trunk) s =
        .next (now.setInService l (some { r with phase := .resendWait, attempt := r.attempt - 1 }))) ∧
    (∀ l r, s.onWire = some (.dispatch l (some r.ticket)) → s.inServiceAt l = some r → r.phase = .dispatching →
      exec (.lineGoesDead .trunk) s = .next ((now.setInService l none).abortReturn r.record)) ∧
    (∀ l r, s.onWire = some (.dispatch l none) → s.levelUnit.inTransmission = some r →
      exec (.lineGoesDead .trunk) s =
        .next ((now.setLevelUnit { now.levelUnit with inTransmission := none }).abortReturn r)) ∧
    (∀ l ticket, (s.onWire = some (.resend l ticket) ∨ s.onWire = some (.dispatch l (some ticket))) →
      (∀ r, s.inServiceAt l = some r → r.ticket ≠ ticket) → exec (.lineGoesDead .trunk) s = .next now) ∧
    (∀ l, s.onWire = some (.dispatch l none) → s.levelUnit.inTransmission = none →
      exec (.lineGoesDead .trunk) s = .next now))

/-- The abort return: the record is at the head of its level's queue, and the tail leaves if the `limit` is exceeded, as a drop
(R96). -/
def Obligations.AbortReturnPutsTheRecordAtTheHead : Prop :=
  (∀ (s : State) (r : Record), (s.levelAt r.level).queue.length < (s.levelAt r.level).settings.limit.toNat →
    s.abortReturn r = s.setLevel r.level { s.levelAt r.level with
      queue := r :: (s.levelAt r.level).queue
      counts := { (s.levelAt r.level).counts with
        highWater := BitVec.ofNat 16
          (max (s.levelAt r.level).counts.highWater.toNat ((s.levelAt r.level).queue.length + 1)) } }) ∧
  (∀ (s : State) (r tail : Record) (front : List Record), (s.levelAt r.level).queue = front ++ [tail] →
    (s.levelAt r.level).settings.limit.toNat = front.length + 1 →
    front.length + 1 ≤ (s.levelAt r.level).counts.highWater.toNat →
    s.abortReturn r = ((s.setLevel r.level { s.levelAt r.level with
      queue := r :: front
      counts := { (s.levelAt r.level).counts with dropped := satInc (s.levelAt r.level).counts.dropped } }).setNotices
        (s.notices.levelCause r.level)).releaseIfHeld tail .refused)

/-! ### Receiving -/

/-- The receiver's response to each symbol, what it has gathered of a frame, and that each verdict is handed over at its moment
(R3). -/
def Obligations.ReceiverFollowsItsTable : Prop :=
  (∀ (k : LinkKind) (x : Symbol), Receiver.dead.take k x = (.dead, none)) ∧
  (∀ k : LinkKind, Receiver.hunt.take k .start = (.inFrame { stored := [], count := 0, crc := 0xFFFF }, none)) ∧
  (∀ (k : LinkKind) (x : Symbol), x ≠ .start → Receiver.hunt.take k x = (.hunt, none)) ∧
  (∀ (k : LinkKind) (f : RxFrame),
    (Receiver.inFrame f).take k .start = (.inFrame { stored := [], count := 0, crc := 0xFFFF }, some .framing) ∧
    (Receiver.inFrame f).take k .idle = (.inFrame f, none) ∧
    (Receiver.inFrame f).take k .endMarker = (.hunt, some (frameVerdict k f)) ∧
    (Receiver.inFrame f).take k .abort = (.hunt, some .framing) ∧
    (Receiver.inFrame f).take k .violation = (.hunt, some .framing) ∧
    (Receiver.inFrame f).goDead = (.dead, some .framing)) ∧
  (Receiver.hunt.goDead = (.dead, none) ∧ Receiver.dead.comeLive = .hunt) ∧
  (∀ (k : LinkKind) (bytes : List Byte) (b : Byte),
    (Receiver.inFrame (gathered k bytes)).take k (.data b) = (.inFrame (gathered k (bytes ++ [b])), none)) ∧
  (∀ (k : LinkKind) (bytes : List Byte), gathered k bytes =
    { stored := bytes.take (if k = .field then 16 else 30), count := bytes.length, crc := frameCheck bytes }) ∧
  (∀ (p : PortId) (s : State) (x : Symbol) (xs : List Symbol), s.Running →
    exec (.badFrame p (x :: xs)) s = exec (.badFrame p xs) (s.fieldSymbol p x) ∧
    exec (.badTrunkFrame (x :: xs)) s = exec (.badTrunkFrame xs) (s.trunkSymbol x))

/-- The check of the covered bytes, and the two ways in which a receiver judges it, which agree; a frame whose check fails earns
CHECK (R5, R6). -/
def Obligations.CheckIsComputedAndJudged : Prop :=
  (frameCheck [] = 0xFFFF ∧
  (∀ (body : List Byte) (b : Byte),
    frameCheck (body ++ [b]) =
      crcStep (crcStep (crcStep (crcStep (crcStep (crcStep (crcStep (crcStep
        (frameCheck body ^^^ (b.zeroExtend 16 <<< 8)))))))))) ∧
  (∀ r : Half, crcStep r = if r.toNat < 32768 then r <<< 1 else (r <<< 1) ^^^ 0x2F15) ∧
  (∀ body : List Byte, closeFrame body =
    body ++ [BitVec.ofNat 8 ((frameCheck body).toNat / 256), BitVec.ofNat 8 ((frameCheck body).toNat % 256)])) ∧
  ((∀ (body : List Byte) (hi lo : Byte),
    (crcRun 0xFFFF (body ++ [hi, lo]) = 0 ↔ frameCheck body = joinBytes hi lo)) ∧
  (∀ (k : LinkKind) (body : List Byte) (hi lo : Byte), body ≠ [] → frameCheck body ≠ joinBytes hi lo →
    frameVerdict k (gathered k (body ++ [hi, lo])) = .check) ∧
  (∀ (k : LinkKind) (body : List Byte) (hi lo : Byte), body ≠ [] → frameCheck body = joinBytes hi lo →
    frameVerdict k (gathered k (body ++ [hi, lo])) ≠ .check))

/-- The first test that fails gives a frame its verdict (R4, R7, R8). -/
def Obligations.VerdictIsTheFirstFailedTest : Prop :=
  (∀ (k : LinkKind) (bytes : List Byte), bytes.length < 3 → frameVerdict k (gathered k bytes) = .framing) ∧
  (∀ (k : LinkKind) (kind : Byte) (body : List Byte),
    kind ∉ (if k = .field then [0x51] else [0x62, 0x63, 0x64, 0x65, 0x71]) →
    frameVerdict k (gathered k (closeFrame (kind :: body))) = .unknownKind) ∧
  (∀ body : List Byte, body.length < 5 →
    frameVerdict .field (gathered .field (closeFrame (0x51 :: body))) = .format) ∧
  (∀ (front : List Byte) (plen : Byte) (payload : List Byte), front.length = 4 →
    (8 < plen.toNat ∨ payload.length ≠ plen.toNat) →
    frameVerdict .field (gathered .field (closeFrame (0x51 :: front ++ plen :: payload))) = .format) ∧
  (∀ body : List Byte, body.length < 3 →
    frameVerdict .trunk (gathered .trunk (closeFrame (0x71 :: body))) = .format) ∧
  (∀ (tag op oplen : Byte) (operands : List Byte), (24 < oplen.toNat ∨ operands.length ≠ oplen.toNat) →
    frameVerdict .trunk (gathered .trunk (closeFrame (0x71 :: tag :: op :: oplen :: operands))) = .format) ∧
  (∀ body : List Byte, body.length ≠ 2 →
    frameVerdict .trunk (gathered .trunk (closeFrame (0x62 :: body))) = .format) ∧
  (∀ (kind : Byte) (body : List Byte), (kind = 0x63 ∨ kind = 0x64) → body.length ≠ 1 →
    frameVerdict .trunk (gathered .trunk (closeFrame (kind :: body))) = .format) ∧
  (∀ body : List Byte, body ≠ [] →
    frameVerdict .trunk (gathered .trunk (closeFrame (0x65 :: body))) = .format)

/-- The frames that earn VALID are exactly those that spell a well-formed frame of an accepted kind, and an EVENT frame gives its
fields back. -/
def Obligations.ValidFramesSpellTheirFields : Prop :=
  (∀ bytes : List Byte, frameVerdict .field (gathered .field bytes) = .valid bytes ↔
    ∃ node code cond spare seq payload, cond ≠ 3 ∧ payload.length ≤ 8 ∧
      bytes = closeFrame (eventBody node code cond spare seq payload)) ∧
  (∀ bytes : List Byte, frameVerdict .trunk (gathered .trunk bytes) = .valid bytes ↔
    (∃ ticket outcome, ticket ≠ 0 ∧ (outcome = 1 ∨ outcome = 2) ∧ bytes = closeFrame (completeBody ticket outcome)) ∨
    (∃ outcome, (outcome = 1 ∨ outcome = 2) ∧ bytes = closeFrame (completeTopBody outcome)) ∨
    (∃ duration, bytes = closeFrame (pauseBody duration)) ∨
    bytes = closeFrame resumeBody ∨
    (∃ tag op operands, operands.length ≤ 24 ∧ bytes = closeFrame (requestBody tag op operands))) ∧
  (∀ (node : Byte) (code : Half) (c : Cond) (spare : BitVec 2) (seq : BitVec 4) (payload : List Byte), payload.length ≤ 8 →
    parseEvent (closeFrame (eventBody node code (condCode c) spare seq payload)) =
      some { node := node, code := code, cond := c, seq := seq, payload := payload })

/-- What a port does with each verdict (R15). -/
def Obligations.PortActsOnEachVerdict : Prop :=
  (∀ (s : State) (p : PortId) (v : Verdict), (look s.ports p).enabled = false → s.portVerdict p v = s) ∧
  (∀ (s : State) (p : PortId), (look s.ports p).enabled = true →
    s.portVerdict p .framing = s.raisePort p .framing ∧ s.portVerdict p .check = s.raisePort p .check ∧
    s.portVerdict p .unknownKind = s.raisePort p .format ∧ s.portVerdict p .format = s.raisePort p .format) ∧
  (∀ (s : State) (p : PortId) (bytes : List Byte) (e : Event), (look s.ports p).enabled = true → parseEvent bytes = some e →
    ((look s.ports p).received.length < 4 → s.portVerdict p (.valid bytes) =
      { s with ports := put s.ports p { look s.ports p with received := (look s.ports p).received ++ [e] } }) ∧
    (4 ≤ (look s.ports p).received.length → s.portVerdict p (.valid bytes) = s.raisePort p .overrun))

/-- EVENT: a frame on a working line joins the receive queue, or is discarded with OVERRUN; one with an illegal field earns
FORMAT (R8, R9, R15). -/
def Obligations.EventJoinsTheReceiveQueue : Prop :=
  (∀ (p : PortId) (node : Byte) (code : Half) (c : Cond) (spare : BitVec 2) (seq : BitVec 4) (payload : List Byte) (s : State),
    s.Running → (look s.ports p).rx = .hunt → payload.length ≤ 8 →
    ((look s.ports p).enabled = false → exec (.event p node code (condCode c) spare seq payload) s = .next s) ∧
    ((look s.ports p).enabled = true → (look s.ports p).received.length < 4 →
      exec (.event p node code (condCode c) spare seq payload) s =
        .next { s with ports := put s.ports p { look s.ports p with
          received := (look s.ports p).received ++
            [{ node := node, code := code, cond := c, seq := seq, payload := payload }] } }) ∧
    ((look s.ports p).enabled = true → 4 ≤ (look s.ports p).received.length →
      exec (.event p node code (condCode c) spare seq payload) s = .next (s.raisePort p .overrun))) ∧
  (∀ (p : PortId) (node : Byte) (code : Half) (cond spare : BitVec 2) (seq : BitVec 4) (payload : List Byte) (s : State),
    s.Running →
    ((look s.ports p).rx = .dead → exec (.event p node code cond spare seq payload) s = .next s) ∧
    ((look s.ports p).rx = .hunt → (cond = 3 ∨ 8 < payload.length) →
      exec (.event p node code cond spare seq payload) s = .next (s.portVerdict p .format)) ∧
    (∀ frame, (look s.ports p).rx = .inFrame frame →
      exec (.event p node code cond spare seq payload) s = exec (.event p node code cond spare seq payload)
        ((s.setPort p { look s.ports p with rx := .hunt }).portVerdict p .framing)))

/-- BAD_FRAME and BAD_TRUNK_FRAME: the symbols are taken one after another, each verdict at its moment (R3, R4, R125). -/
def Obligations.BadFramesAreTakenSymbolBySymbol : Prop :=
  (∀ (p : PortId) (s : State), s.Running →
    exec (.badFrame p []) s = .next s ∧
    (∀ x xs, exec (.badFrame p (x :: xs)) s = exec (.badFrame p xs) (s.fieldSymbol p x)) ∧
    (∀ bytes, (look s.ports p).rx = .hunt →
      exec (.badFrame p (.start :: (bytes.map .data ++ [.endMarker]))) s =
        .next (s.portVerdict p (frameVerdict .field (gathered .field bytes))) ∧
      exec (.badFrame p (.start :: (bytes.map .data ++ [.abort]))) s = .next (s.portVerdict p .framing) ∧
      exec (.badFrame p (.start :: (bytes.map .data ++ [.violation]))) s = .next (s.portVerdict p .framing))) ∧
  (∀ s : State, s.Running →
    exec (.badTrunkFrame []) s = .next s ∧
    (∀ x xs, exec (.badTrunkFrame (x :: xs)) s = exec (.badTrunkFrame xs) (s.trunkSymbol x)) ∧
    (∀ bytes, s.trunk.rx = .hunt →
      exec (.badTrunkFrame (.start :: (bytes.map .data ++ [.endMarker]))) s =
        .next (s.trunkVerdict (frameVerdict .trunk (gathered .trunk bytes))) ∧
      exec (.badTrunkFrame (.start :: (bytes.map .data ++ [.abort]))) s = .next (s.raiseTrunk .framing) ∧
      exec (.badTrunkFrame (.start :: (bytes.map .data ++ [.violation]))) s = .next (s.raiseTrunk .framing)))

/-- Every supervisor frame reaches the unit its kind belongs to; a bad one sets its sticky condition (R125). -/
def Obligations.TrunkFramesReachTheirUnits : Prop :=
  (∀ (s : State) (ticket : Byte), s.Running → s.trunk.rx = .hunt → ticket ≠ 0 →
    exec (.complete ticket 1) s = .next (s.takeComplete ticket .done) ∧
    exec (.complete ticket 2) s = .next (s.takeComplete ticket .reject) ∧
    exec (.completeTop 1) s = .next (s.takeCompleteTop .done) ∧
    exec (.completeTop 2) s = .next (s.takeCompleteTop .reject)) ∧
  (∀ (s : State) (tag op : Byte) (operands : List Byte), s.Running → s.trunk.rx = .hunt → operands.length ≤ 24 →
    exec (.request tag op operands) s = .next (s.takeRequest tag op operands)) ∧
  (∀ (s : State) (ticket outcome tag op : Byte) (operands : List Byte), s.Running → s.trunk.rx = .hunt →
    ((ticket = 0 ∨ (outcome ≠ 1 ∧ outcome ≠ 2)) →
      exec (.complete ticket outcome) s = .next (s.raiseTrunk .format)) ∧
    (outcome ≠ 1 → outcome ≠ 2 → exec (.completeTop outcome) s = .next (s.raiseTrunk .format)) ∧
    (24 < operands.length → exec (.request tag op operands) s = .next (s.raiseTrunk .format))) ∧
  (∀ (s : State) (c : Instr), s.Running →
    (c = .resume ∨ (∃ d, c = .pause d) ∨ (∃ o, c = .completeTop o) ∨ (∃ t o, c = .complete t o) ∨
      (∃ tag op operands, c = .request tag op operands)) →
    (s.trunk.rx = .dead → exec c s = .next s) ∧
    (∀ frame, s.trunk.rx = .inFrame frame →
      exec c s = exec c ((s.setTrunk { s.trunk with rx := .hunt }).raiseTrunk .framing))) ∧
  (∀ s : State, s.trunkVerdict .framing = s.raiseTrunk .framing ∧ s.trunkVerdict .check = s.raiseTrunk .check ∧
    s.trunkVerdict .unknownKind = s.raiseTrunk .unknownKind ∧ s.trunkVerdict .format = s.raiseTrunk .format)

/-- The pause state and its timer under PAUSE, RESUME and the expiry (R128). The expiry clause covers RUNNING too, where an expiry does
not occur and changes nothing, which is the model's choice (notes/assumptions/3.md). -/
def Obligations.PauseStateFollowsItsTable : Prop :=
  (∀ (s : State) (d : Byte), s.Running → s.trunk.rx = .hunt →
    (d ≠ 0 → exec (.pause d) s = .next { s with trunk := { s.trunk with pause := .paused d } }) ∧
    (d = 0 → exec (.pause d) s = .next { s with trunk := { s.trunk with pause := .running } }) ∧
    exec .resume s = .next { s with trunk := { s.trunk with pause := .running } }) ∧
  (∀ s : State, s.Running →
    exec .pauseTimerExpires s = .next { s with trunk := { s.trunk with pause := .running } })

/-! ### Conditions and notices -/

/-- A sticky condition goes from clear to set once, and is then handed to the Notice Unit, a port's only if its notices are on
(R17); each stray completion is counted (R126). -/
def Obligations.ConditionsAreSticky : Prop :=
  ((∀ (s : State) (p : PortId) (c : PortCondition), member (look s.ports p).conditions c.bit = true → s.raisePort p c = s) ∧
  (∀ (s : State) (p : PortId) (c : PortCondition), member (look s.ports p).conditions c.bit = false →
    s.raisePort p c = { s with
      ports := put s.ports p { look s.ports p with
        conditions := (look s.ports p).conditions ||| BitVec.twoPow 6 c.bit }
      notices := if (look s.ports p).noticeEnabled = true then s.notices.portCause p else s.notices }) ∧
  ([PortCondition.overrun, .framing, .check, .format, .releaseLost, .linkChange].map PortCondition.bit = [0, 1, 2, 3, 4, 5])) ∧
  ((∀ (s : State) (c : TrunkCondition), member s.trunk.conditions c.bit = true → s.raiseTrunk c = s) ∧
  (∀ (s : State) (c : TrunkCondition), member s.trunk.conditions c.bit = false →
    s.raiseTrunk c = { s with
      trunk := { s.trunk with conditions := s.trunk.conditions ||| BitVec.twoPow 7 c.bit }
      notices := s.notices.trunkCause c }) ∧
  ([TrunkCondition.framing, .check, .format, .unknownKind, .stray, .mgmtDrop, .linkChange].map TrunkCondition.bit =
    [0, 1, 2, 3, 4, 5, 6]) ∧
  (∀ s : State, s.raiseStray = ({ s with trunk := { s.trunk with
    strays := if s.trunk.strays = 65535 then 65535 else s.trunk.strays + 1 } } : State).raiseTrunk .stray))

/-- A cause sets its kind's latch and joins its accumulation if the kind is on, and leaves no trace if it is off (R133). -/
def Obligations.CausesJoinTheAccumulation : Prop :=
  (∀ (n : NoticeUnit) (p : PortId), n.portCause p =
    if member n.enables 0 then { n with port := some (n.port.getD 0 ||| BitVec.twoPow 6 p) } else n) ∧
  (∀ (n : NoticeUnit) (l : LevelId), n.levelCause l =
    if member n.enables 1 then { n with level := some (n.level.getD 0 ||| BitVec.twoPow 16 l) } else n) ∧
  (∀ (n : NoticeUnit) (t : Byte) (l : LevelId), member n.enables 2 = true →
    (n.lapse = none → n.lapseCause t l = { n with lapse := some { count := 1, ticket := t, level := l } }) ∧
    (∀ x, n.lapse = some x → n.lapseCause t l =
      { n with lapse := some { count := if x.count = 255 then 255 else x.count + 1, ticket := t, level := l } })) ∧
  (∀ (n : NoticeUnit) (t : Byte) (l : LevelId), member n.enables 2 = false → n.lapseCause t l = n) ∧
  (∀ n : NoticeUnit, member n.enables 3 = true →
    (n.pool = none → n.poolCause = { n with pool := some 1 }) ∧
    (∀ x, n.pool = some x → n.poolCause = { n with pool := some (if x = 255 then 255 else x + 1) })) ∧
  (∀ n : NoticeUnit, member n.enables 3 = false → n.poolCause = n) ∧
  (∀ (n : NoticeUnit) (c : TrunkCondition), n.trunkCause c =
    if member n.enables 4 then { n with trunk := some (n.trunk.getD 0 ||| BitVec.twoPow 7 c.bit) } else n) ∧
  (∀ n : NoticeUnit, n.ready = true ↔ n.returned.isSome ∨ ∃ kind, n.latched kind = true)

/-! ### Completions, retires, releases -/

/-- COMPLETE retires the record in service that holds its ticket, COMPLETE-TOP the record of the level in service that ranks
highest, in whatever sub-state (R117, R118). -/
def Obligations.CompletionsRetireTheirRecord : Prop :=
  (∀ (s : State) (l : LevelId) (r : ServiceRecord), s.Running → s.trunk.rx = .hunt → s.TicketsDistinct →
    s.inServiceAt l = some r → r.ticket ≠ 0 →
    exec (.complete r.ticket 1) s = .next (s.retire l r .done) ∧
    exec (.complete r.ticket 2) s = .next (s.retire l r .reject)) ∧
  (∀ (s : State) (l : LevelId) (r : ServiceRecord), s.Running → s.trunk.rx = .hunt → s.inServiceAt l = some r →
    s.Highest (fun m => (s.inServiceAt m).isSome) l →
    exec (.completeTop 1) s = .next (s.retire l r .done) ∧ exec (.completeTop 2) s = .next (s.retire l r .reject))

/-- A completion that names no record in service changes nothing but the stray count and the STRAY condition with its report
(R119). -/
def Obligations.StrayCompletionsAreOnlyCounted : Prop :=
  ∀ (s t : State) (ticket outcome : Byte), s.Running → s.trunk.rx = .hunt → (outcome = 1 ∨ outcome = 2) →
    t = { s with
      trunk := { s.trunk with
        strays := if s.trunk.strays = 65535 then 65535 else s.trunk.strays + 1
        conditions := s.trunk.conditions ||| BitVec.twoPow 7 TrunkCondition.stray.bit }
      notices := if member s.trunk.conditions TrunkCondition.stray.bit = true then s.notices
        else s.notices.trunkCause .stray } →
    (ticket ≠ 0 → (∀ l r, s.inServiceAt l = some r → r.ticket ≠ ticket) → exec (.complete ticket outcome) s = .next t) ∧
    ((∀ l, s.inServiceAt l = none) → exec (.completeTop outcome) s = .next t)

/-- A retire: the record leaves service, its outcome is counted, one RELEASE is requested, a lapse is reported, and the level is
served, which makes it L in ROTATING mode (R105, R116). -/
def Obligations.RetireDoesAllItsParts : Prop :=
  (∀ (s t : State) (l : LevelId) (r : ServiceRecord) (o : RetireOutcome), t = s.retire l r o →
    t.service = { s.service with
      inService := put s.service.inService l none
      lowest := if s.service.mode = .rotating then l else s.service.lowest } ∧
    t.levelUnit = { s.levelUnit with levels := put s.levelUnit.levels l { s.levelAt l with
      counts := { (s.levelAt l).counts with
        done := if o = .done then satInc (s.levelAt l).counts.done else (s.levelAt l).counts.done
        rejected := if o = .reject then satInc (s.levelAt l).counts.rejected else (s.levelAt l).counts.rejected
        lapsed := if o = .lapsed then satInc (s.levelAt l).counts.lapsed else (s.levelAt l).counts.lapsed
        flushed := if o = .flushed then satInc (s.levelAt l).counts.flushed else (s.levelAt l).counts.flushed } } } ∧
    (t.ports = (s.requestRelease r.record.origin
      { node := r.record.node, code := r.record.code, seq := r.record.seq,
        outcome := match o with
          | .done => .done
          | .reject => .refused
          | .lapsed => .lapsed
          | .flushed => .flushed }).ports) ∧
    (t.resetHeld = s.resetHeld ∧ t.classifier = s.classifier ∧ t.table = s.table ∧ t.conditions = s.conditions ∧
      t.trunk = s.trunk ∧ t.management = s.management ∧ t.pending = s.pending)) ∧
  (∀ (s : State) (l : LevelId) (r : ServiceRecord) (o : RetireOutcome),
    (s.retire l r o).notices =
      if o = .lapsed
        then (s.requestRelease r.record.origin (releaseOf r.record .lapsed)).notices.lapseCause r.ticket l
        else (s.requestRelease r.record.origin (releaseOf r.record (releaseOutcomeOf o))).notices)

/-- A release request goes by its origin to a port, which appends, discards or loses it (R19). -/
def Obligations.ReleaseRequestsAreRouted : Prop :=
  (∀ (s : State) (q : ReleaseRequest), s.requestRelease 6 q = s) ∧
  (∀ (s : State) (p : PortId) (q : ReleaseRequest), (look s.ports p).enabled = false →
    s.requestRelease (p.castLE (by decide)) q = s) ∧
  (∀ (s : State) (p : PortId) (q : ReleaseRequest), (look s.ports p).enabled = true →
    (look s.ports p).releases.length < 8 →
    s.requestRelease (p.castLE (by decide)) q = { s with ports := put s.ports p { look s.ports p with
      releases := (look s.ports p).releases ++ [q] } }) ∧
  (∀ (s : State) (p : PortId) (q : ReleaseRequest), (look s.ports p).enabled = true →
    8 ≤ (look s.ports p).releases.length →
    s.requestRelease (p.castLE (by decide)) q = s.raisePort p .releaseLost)

/-- The service timer's expiry sends the record to RESEND-WAIT while attempts remain and retires it LAPSED else; a timer that
does not run does not expire (R112, R113). -/
def Obligations.ServiceTimerExpiryResendsOrLapses : Prop :=
  (∀ (s : State) (l : LevelId) (r : ServiceRecord) (units : Byte), s.Running → s.inServiceAt l = some r →
    r.phase = .awaiting (some units) →
    (r.attempt.toNat < (s.levelAt l).settings.retries.toNat + 1 →
      exec (.serviceTimerExpires l) s = .next { s with service := { s.service with
        inService := put s.service.inService l (some { r with phase := .resendWait }) } }) ∧
    ((s.levelAt l).settings.retries.toNat + 1 ≤ r.attempt.toNat →
      exec (.serviceTimerExpires l) s = .next (s.retire l r .lapsed))) ∧
  (∀ (s : State) (l : LevelId), s.Running →
    (∀ r units, s.inServiceAt l = some r → r.phase ≠ .awaiting (some units)) → exec (.serviceTimerExpires l) s = .next s)

/-! ### Classifier, table and tracker -/

/-- CLASSIFICATION_START takes the first eligible requester from the pointer on; its event, with the ACTIVE bank and the
generation noted, is in flight and the pointer moves past it (R49 to R51). That a start command changes nothing with an event in
flight, a swap waiting or nobody eligible is the model's choice (notes/assumptions/3.md). -/
def Obligations.ClassificationStartsInTurn : Prop :=
  (∀ (s : State) (p : PortId) (e : Event) (rest : List Event) (r : Requester), s.Running → s.classifier.inFlight = none →
    s.table.operation.isSwapPending = false → (look s.ports p).received = e :: rest → r = p.castLE (by decide) →
    (∀ i : Fin 7, i < r - s.classifier.pointer → s.eligible (s.classifier.pointer + i) = false) →
    exec .classificationStart s = .next { s with
      ports := put s.ports p { look s.ports p with received := rest }
      classifier := { s.classifier with
        inFlight := some
          { requester := r, event := e, bank := s.table.active, generation := s.table.generation, reply := none }
        pointer := r + 1 } }) ∧
  (∀ (s : State) (i : InjectedEvent), s.Running → s.classifier.inFlight = none → s.table.operation.isSwapPending = false →
    s.classifier.injection = some i →
    (∀ j : Fin 7, j < 6 - s.classifier.pointer → s.eligible (s.classifier.pointer + j) = false) →
    exec .classificationStart s = .next { s with classifier := {
      inFlight := some
        { requester := 6, event := i.event, bank := s.table.active, generation := s.table.generation,
          reply := some i.reply }
      pointer := 0
      injection := none } }) ∧
  (∀ s : State, s.Running →
    (s.classifier.inFlight ≠ none ∨ s.table.operation.isSwapPending = true ∨ (∀ r, s.eligible r = false)) →
    exec .classificationStart s = .next s) ∧
  (∀ s : State, (∀ p : PortId, s.eligible (p.castLE (by decide)) = true ↔ (look s.ports p).received ≠ []) ∧
    (s.eligible 6 = true ↔ s.classifier.injection.isSome))

/-- An eligible requester stays eligible until it is served, unless a reset or a disable empties it, and the pointer moves at starts
and resets alone; each start that passes over the requester brings it nearer in turn, so that one that stays eligible is served
within any seven starts (R49, R50). -/
def Obligations.EveryStartBringsAWaitingRequesterNearer : Prop :=
  (∀ (c : Instr) (s t : State) (r : Requester), s.eligible r = true → exec c s = .next t → ¬Resets c →
    (c = .writePort → ∀ p : PortId, r = p.castLE (by decide) → (look t.ports p).enabled = true) →
    t.eligible r = true ∨
      c = .classificationStart ∧ s.classifier.inFlight = none ∧ t.classifier.inFlight.map FlightEvent.requester = some r) ∧
  (∀ (c : Instr) (s t : State), exec c s = .next t → ¬Resets c → c ≠ .classificationStart →
    t.classifier.pointer = s.classifier.pointer) ∧
  (∀ (s t : State) (f : FlightEvent) (r : Requester), s.classifier.inFlight = none → s.eligible r = true →
    exec .classificationStart s = .next t → t.classifier.inFlight = some f → f.requester ≠ r →
    (r - t.classifier.pointer).val < (r - s.classifier.pointer).val) ∧
  (∀ (commands : Nat → Instr) (states : Nat → State) (r : Requester) (n : Nat), Run commands states →
    (∀ i, i < n → (states i).eligible r = true) → 7 ≤ (List.range n).countP (startsAt states) →
    ∃ i, i < n ∧ startsAt states i = true ∧ (states (i + 1)).classifier.inFlight.map FlightEvent.requester = some r)

/-- A lookup is decided by the first valid entry that passes the tests, else by the default record, and depends on nothing but
the definitions and the event's requester, `node`, `code` and `cond` (R33, R34); the decider's hits, and no other's, rise by
one and stop at 65535 (R38). -/
def Obligations.LookupIsDecidedByTheFirstMatch : Prop :=
  ((∀ (d : Definition) (r : Requester) (e : Event), d.Legal → (d.matchesEvent r e = true ↔
    member d.ports r = true ∧ e.node &&& d.nodeMask = d.nodeValue ∧ e.code &&& d.codeMask = d.codeValue ∧
      member d.conds (match e.cond with
        | .pulse => 0
        | .assert => 1
        | .clear => 2) = true)) ∧
  (∀ (b : Bank) (r : Requester) (e : Event) (i : EntryId) (x : Entry), look b.entries i = some x →
    x.definition.matchesEvent r e = true →
    (∀ j y, j < i → look b.entries j = some y → y.definition.matchesEvent r e = false) →
    b.lookup r e = { decider := some i, action := x.definition.action }) ∧
  (∀ (b : Bank) (r : Requester) (e : Event),
    (∀ j y, look b.entries j = some y → y.definition.matchesEvent r e = false) →
    b.lookup r e = { decider := none, action := match b.defaultRecord.action with
      | .forward => .forward b.defaultRecord.level
      | .count => .count
      | .discard => .discard }) ∧
  (∀ (b c : Bank) (r : Requester) (e g : Event),
    (∀ i, (look b.entries i).map Entry.definition = (look c.entries i).map Entry.definition) →
    b.defaultRecord.action = c.defaultRecord.action → b.defaultRecord.level = c.defaultRecord.level →
    e.node = g.node → e.code = g.code → e.cond = g.cond → b.lookup r e = c.lookup r g)) ∧
  ((∀ (b : Bank) (i : EntryId) (x : Entry), look b.entries i = some x →
    b.countHit (some i) = { b with entries := put b.entries i (some { x with
      hits := if x.hits = 65535 then 65535 else x.hits + 1 }) }) ∧
  (∀ b : Bank, b.countHit none = { b with defaultRecord := { b.defaultRecord with
    hits := if b.defaultRecord.hits = 65535 then 65535 else b.defaultRecord.hits + 1 } }))

/-- CLASSIFICATION_COMPLETES for an event from a port: the hit is counted in the bank noted at the start, the action is carried
out, and the Classifier is IDLE (R52 to R56). With no event in flight nothing happens, which is the model's choice
(notes/assumptions/3.md). -/
def Obligations.ClassificationCompletesByItsDecision : Prop :=
  (∀ (s hit : State) (f : FlightEvent) (d : Decision), s.Running → s.classifier.inFlight = some f → f.reply = none →
    s.table.operation.isSwapPending = false → d = (s.table.bank f.bank).lookup f.requester f.event →
    hit = { s with
      table := s.table.setBank f.bank ((s.table.bank f.bank).countHit d.decider)
      classifier := { s.classifier with inFlight := none } } →
    ((d.action = .count ∨ d.action = .discard) → exec .classificationCompletes s = .next hit) ∧
    (∀ l, d.action = .forward l → exec .classificationCompletes s = .next (hit.admission
      { kind := .posted, level := l, origin := f.requester, node := f.event.node, code := f.event.code, cond := f.event.cond,
        seq := f.event.seq, payload := f.event.payload, repeats := 1, gen := f.generation, mayCoalesce := true }).1) ∧
    (∀ l, d.action = .hold l → exec .classificationCompletes s = .next (hit.admission
      { kind := .held, level := l, origin := f.requester, node := f.event.node, code := f.event.code, cond := f.event.cond,
        seq := f.event.seq, payload := f.event.payload, repeats := 1, gen := f.generation, mayCoalesce := false }).1) ∧
    (∀ l i, d.action = .track l i → exec .classificationCompletes s = .next (hit.track f l i).1)) ∧
  (∀ s : State, s.Running → s.classifier.inFlight = none → exec .classificationCompletes s = .next s)

/-- The tracker absorbs a repeat, and forwards a change with the slot's count of absorbed events; the slot takes the change only
if its record was placed (R63 to R67). -/
def Obligations.TrackerForwardsChangesAndAbsorbsRepeats : Prop :=
  ∀ (s : State) (f : FlightEvent) (l : LevelId) (i : SlotId) (slot : ConditionSlot) (new : TrackState),
    slot = look s.conditions i →
    (f.event.cond = .assert ∧ new = .asserted ∨ f.event.cond = .clear ∧ new = .cleared) →
    (slot.state = new → s.track f l i =
      ({ s with conditions := put s.conditions i { slot with
        absorbed := if slot.absorbed = 255 then 255 else slot.absorbed + 1 } }, .absorbed)) ∧
    (∀ t o, slot.state ≠ new → s.admission
        { kind := .posted, level := l, origin := f.requester, node := f.event.node, code := f.event.code,
          cond := f.event.cond, seq := f.event.seq, payload := f.event.payload,
          repeats := if slot.absorbed = 255 then 255 else slot.absorbed + 1, gen := f.generation,
          mayCoalesce := false } = (t, o) →
      (o = .queued → s.track f l i =
        ({ t with conditions := put t.conditions i {
            state := new, last := some (f.requester, f.event.node),
            changes := if slot.changes = 65535 then 65535 else slot.changes + 1, absorbed := 0 } }, o)) ∧
      (o ≠ .queued → s.track f l i = (t, o) ∧ t.conditions = s.conditions))

/-! ### Admission -/

/-- A posted request that may coalesce merges into the first pending record that is like it (R90); a held request like a held
record that is pending at any level or in service leaves no trace (R91); every other request goes on to the room test. -/
def Obligations.AdmissionMergesOrSuppressesRepeats : Prop :=
  ((∀ (s : State) (q r : Record) (front back : List Record), q.kind = .posted → q.mayCoalesce = true →
    (s.levelAt q.level).settings.coalesce = true → (s.levelAt q.level).queue = front ++ r :: back →
    (r.kind = .posted ∧ r.mayCoalesce = true ∧ r.origin = q.origin ∧ r.node = q.node ∧ r.code = q.code ∧ r.cond = q.cond) →
    (∀ x ∈ front, ¬(x.kind = .posted ∧ x.mayCoalesce = true ∧ x.origin = q.origin ∧ x.node = q.node ∧ x.code = q.code ∧
      x.cond = q.cond)) →
    s.admission q = (s.setLevel q.level { s.levelAt q.level with
      queue := front ++ { r with
        repeats := if r.repeats = 255 then 255 else r.repeats + 1, seq := q.seq, payload := q.payload } :: back },
      .coalesced)) ∧
  (∀ (s : State) (q : Record), q.kind = .posted →
    (q.mayCoalesce = false ∨ (s.levelAt q.level).settings.coalesce = false ∨
      ∀ x ∈ (s.levelAt q.level).queue, ¬(x.kind = .posted ∧ x.mayCoalesce = true ∧ x.origin = q.origin ∧ x.node = q.node ∧
        x.code = q.code ∧ x.cond = q.cond)) →
    s.admission q = s.admitToRoom q)) ∧
  (∀ (s : State) (q : Record) (like : Record → Prop), q.kind = .held →
    (like = fun r => r.kind = .held ∧ r.origin = q.origin ∧ r.node = q.node ∧ r.code = q.code ∧ r.seq = q.seq) →
    (((∃ l r, r ∈ (s.levelAt l).queue ∧ like r) ∨ (∃ l r, s.inServiceAt l = some r ∧ like r.record)) →
      s.admission q = (s, .duplicate)) ∧
    ((∀ l r, r ∈ (s.levelAt l).queue → ¬like r) → (∀ l r, s.inServiceAt l = some r → ¬like r.record) →
      s.admission q = s.admitToRoom q))

/-- A full level turns the request away under DROP-NEW and displaces its oldest record under DROP-OLD (R92); a free record is
filled and joins the tail, and with none free the request is refused and counted (R93, R94). -/
def Obligations.AdmissionTakesRoomAndARecord : Prop :=
  (∀ (s dropped : State) (q : Record),
    dropped = { s with
      levelUnit := { s.levelUnit with levels := put s.levelUnit.levels q.level { s.levelAt q.level with
        counts := { (s.levelAt q.level).counts with dropped := satInc (s.levelAt q.level).counts.dropped } } }
      notices := s.notices.levelCause q.level } →
    ((s.levelAt q.level).queue.length < (s.levelAt q.level).settings.limit.toNat → s.admitToRoom q = s.allocate q) ∧
    ((s.levelAt q.level).queue.length = (s.levelAt q.level).settings.limit.toNat →
      ((s.levelAt q.level).settings.policy = .dropNew →
        (q.kind = .posted → s.admitToRoom q = (dropped, .dropped)) ∧
        (q.kind = .held → s.admitToRoom q = (dropped.requestRelease q.origin
          { node := q.node, code := q.code, seq := q.seq, outcome := .refused }, .dropped))) ∧
      (∀ r rest, (s.levelAt q.level).settings.policy = .dropOld → (s.levelAt q.level).queue = r :: rest →
        (r.kind = .posted → s.admitToRoom q =
          (dropped.setLevel q.level { dropped.levelAt q.level with queue := rest }).allocate q) ∧
        (r.kind = .held → s.admitToRoom q =
          ((dropped.setLevel q.level { dropped.levelAt q.level with queue := rest }).requestRelease r.origin
            { node := r.node, code := r.code, seq := r.seq, outcome := .refused }).allocate q)))) ∧
  ((∀ (s : State) (q : Record), 0 < s.freeRecords → s.allocate q = ({ s with
    levelUnit := { s.levelUnit with
      levels := put s.levelUnit.levels q.level { s.levelAt q.level with
        queue := (s.levelAt q.level).queue ++ [q]
        counts := { (s.levelAt q.level).counts with
          highWater := BitVec.ofNat 16
            (max (s.levelAt q.level).counts.highWater.toNat ((s.levelAt q.level).queue.length + 1)) } }
      lowWater := BitVec.ofNat 8 (min s.levelUnit.lowWater.toNat (s.freeRecords - 1)) } }, .queued)) ∧
  (∀ (s refused : State) (q : Record), s.freeRecords = 0 →
    refused = { s with
      levelUnit := { s.levelUnit with
        refusals := if s.levelUnit.refusals = 65535 then 65535 else s.levelUnit.refusals + 1 }
      notices := s.notices.poolCause } →
    (q.kind = .posted → s.allocate q = (refused, .refusedPool)) ∧
    (q.kind = .held → s.allocate q = (refused.requestRelease q.origin
      { node := q.node, code := q.code, seq := q.seq, outcome := .refused }, .refusedPool))))

/-! ### Banks -/

/-- A pending swap takes effect as soon as the Classifier is IDLE, and SWAP-BANKS at once if it is IDLE already: roles exchanged,
generation raised, reply produced; else it is pending, or answered BUSY (R79, R80). -/
def Obligations.SwapExchangesTheRoles : Prop :=
  (∀ (s : State) (r : PendingReply), s.Running → s.table.operation = .swapPending r → s.classifier.inFlight = none →
    exec .swapTakesEffect s = .next (({ s with table := s.table.exchanged } : State).repliedLater r 0x07 .ok
      [s.table.generation + 1, letter s.table.exchanged.active])) ∧
  (∀ s : State, s.Running → (s.table.operation.isSwapPending = false ∨ s.classifier.inFlight ≠ none) →
    exec .swapTakesEffect s = .next s) ∧
  (∀ (s : State) (q : QueuedRequest) (rest : List QueuedRequest), s.Running → s.Head q rest → q.op = 0x07 → q.operands = [] →
    (s.table.operation = .idle → s.classifier.inFlight = none →
      exec .swapBanks s = .next (({ s with table := s.table.exchanged } : State).answered q rest .ok
        [s.table.generation + 1, letter s.table.exchanged.active])) ∧
    (s.table.operation = .idle → s.classifier.inFlight ≠ none →
      exec .swapBanks s = .next (({ s with
        table := { s.table with operation := .swapPending { slot := q.slot, tag := q.tag } } } : State).deferred q rest)) ∧
    (s.table.operation ≠ .idle → exec .swapBanks s = .next (s.answered q rest .busy []))) ∧
  (∀ (s done : State) (f : FlightEvent) (r : PendingReply), s.Running → s.classifier.inFlight = some f →
    s.table.operation = .swapPending r →
    exec .classificationCompletes { s with table := { s.table with operation := .idle } } = .next done →
    exec .classificationCompletes s = .next (({ done with table := done.table.exchanged } : State).repliedLater r 0x07 .ok
      [done.table.generation + 1, letter done.table.exchanged.active]))

/-- COPY-BANK starts a copy at entry 0; each step gives one STANDBY item the ACTIVE bank's definition with hits 0; the completion
answers (R77, R78). -/
def Obligations.CopyReplacesItemByItem : Prop :=
  (∀ (s : State) (q : QueuedRequest) (rest : List QueuedRequest), s.Running → s.Head q rest → q.op = 0x06 → q.operands = [] →
    (s.table.operation = .idle → exec .copyBank s = .next (({ s with table := { s.table with
      operation := .copying (.entry 0) { slot := q.slot, tag := q.tag } } } : State).deferred q rest)) ∧
    (s.table.operation ≠ .idle → exec .copyBank s = .next (s.answered q rest .busy []))) ∧
  (∀ (s : State) (i : EntryId) (r : PendingReply), s.Running → s.table.operation = .copying (.entry i) r →
    ∃ t, exec .copyStep s = .next { s with table := t } ∧
      t.bank s.table.active = s.table.bank s.table.active ∧
      t.bank s.table.standby = { s.table.bank s.table.standby with
        entries := put (s.table.bank s.table.standby).entries i
          ((look (s.table.bank s.table.active).entries i).map uncounted) } ∧
      t.active = s.table.active ∧ t.generation = s.table.generation ∧
      t.operation = .copying (if h : i.val < 63 then .entry ⟨i.val + 1, by omega⟩ else .defaultRecord) r) ∧
  (∀ (s : State) (r : PendingReply), s.Running → s.table.operation = .copying .defaultRecord r →
    ∃ t, exec .copyStep s = .next { s with table := t } ∧
      t.bank s.table.active = s.table.bank s.table.active ∧
      t.bank s.table.standby = { s.table.bank s.table.standby with
        defaultRecord := { (s.table.bank s.table.active).defaultRecord with hits := 0 } } ∧
      t.active = s.table.active ∧ t.generation = s.table.generation ∧ t.operation = .copying .finished r) ∧
  (∀ (s : State) (r : PendingReply), s.Running → s.table.operation = .copying .finished r →
    exec .copyCompletes s = .next (({ s with table := { s.table with operation := .idle } } : State).repliedLater r 0x06 .ok
      [letter s.table.standby, s.table.generation])) ∧
  (∀ s : State, s.Running → s.table.operation.progress = none →
    exec .copyStep s = .next s ∧ exec .copyCompletes s = .next s)

/-- The reason of the first failed check of R41 for the operands of a WRITE-ENTRY; and the bytes in which READ-ENTRY returns a
stored definition and the other items (R30 to R32, section 10.5.1). -/
def Obligations.DefinitionsAreCheckedAndReadBack : Prop :=
  (∀ (index ports nv nm cvh cvl cmh cml conds action level slot : Byte) (ops : List Byte),
    ops = [index, ports, nv, nm, cvh, cvl, cmh, cml, conds, action, level, slot] →
    let checks : List Prop :=
      [63 < index.toNat, action.toNat < 1 ∨ 5 < action.toNat, False, ports.msb = true, conds.toNat ≥ 8,
       nv &&& ~~~nm ≠ 0 ∨ (cvh &&& ~~~cmh ≠ 0 ∨ cvl &&& ~~~cml ≠ 0),
       (action = 1 ∨ action = 2 ∨ action = 3) ∧ 15 < level.toNat, action = 3 ∧ 31 < slot.toNat,
       action = 3 ∧ conds.getLsbD 0 = true]
    (∀ n : Fin 9, checks[n] → (∀ m : Fin 9, m < n → ¬checks[m]) →
      writeEntryReason ops = some (BitVec.ofNat 8 (n.val + 1))) ∧
    ((∀ n : Fin 9, ¬checks[n]) → writeEntryReason ops = none)) ∧
  ((∀ (ops : List Byte) (e : Entry), ops.length = 12 → writeEntryReason ops = none → e.definition = definitionOf ops →
    entryBytes (some e) = 1 :: (ops.drop 1).take 9 ++
      [if operand ops 9 = 4 ∨ operand ops 9 = 5 then 0xFF else operand ops 10,
       if operand ops 9 = 3 then operand ops 11 else 0xFF] ++ numberBytes e.hits) ∧
  entryBytes none = [0, 0, 0, 0, 0, 0, 0, 0, 0, 5, 0xFF, 0xFF, 0, 0] ∧
  (∀ d : DefaultRecord, defaultRecordBytes d =
    [1, 0, 0, 0, 0, 0, 0, 0, 0, (match d.action with
      | .forward => 1
      | .count => 4
      | .discard => 5), BitVec.ofNat 8 d.level, 0xFF] ++ numberBytes d.hits))

/-- WRITE-ENTRY, CLEAR-ENTRY and WRITE-DEFAULT change one item of the STANDBY bank when their checks pass in IDLE, and are
answered ILLEGAL with the reason, or BUSY, else (R42 to R44, R73, R146). -/
def Obligations.WritesReachTheStandbyBankOnly : Prop :=
  ∀ (s : State) (q : QueuedRequest) (rest : List QueuedRequest), s.Running → s.Head q rest →
    (q.op = 0x03 → q.operands.length = 12 →
      (∀ reason, writeEntryReason q.operands = some reason →
        exec .writeEntry s = .next (s.answered q rest .illegal [reason])) ∧
      (writeEntryReason q.operands = none → s.table.operation ≠ .idle →
        exec .writeEntry s = .next (s.answered q rest .busy [])) ∧
      (writeEntryReason q.operands = none → s.table.operation = .idle → ∃ t i, i.val = (operand q.operands 0).toNat ∧
        exec .writeEntry s = .next (({ s with table := t } : State).answered q rest .ok
          [letter s.table.standby, s.table.generation, operand q.operands 0]) ∧
        t = s.table.setBank s.table.standby { s.table.bank s.table.standby with
          entries := put (s.table.bank s.table.standby).entries i
            (some { definition := definitionOf q.operands, hits := 0 }) })) ∧
    (∀ index, q.op = 0x04 → q.operands = [index] →
      (63 < index.toNat → exec .clearEntry s = .next (s.answered q rest .illegal [1])) ∧
      (index.toNat ≤ 63 → s.table.operation ≠ .idle → exec .clearEntry s = .next (s.answered q rest .busy [])) ∧
      (∀ i : EntryId, i.val = index.toNat → s.table.operation = .idle → exec .clearEntry s =
        .next (({ s with table := s.table.setBank s.table.standby { s.table.bank s.table.standby with
          entries := put (s.table.bank s.table.standby).entries i none } } : State).answered q rest .ok
            [letter s.table.standby, s.table.generation, index]))) ∧
    (∀ action level, q.op = 0x05 → q.operands = [action, level] →
      ((action.toNat < 1 ∨ 5 < action.toNat) → exec .writeDefault s = .next (s.answered q rest .illegal [2])) ∧
      ((action = 2 ∨ action = 3) → exec .writeDefault s = .next (s.answered q rest .illegal [3])) ∧
      (action = 1 → 15 < level.toNat → exec .writeDefault s = .next (s.answered q rest .illegal [7])) ∧
      ((action = 1 ∧ level.toNat ≤ 15 ∨ action = 4 ∨ action = 5) → s.table.operation ≠ .idle →
        exec .writeDefault s = .next (s.answered q rest .busy [])) ∧
      (∀ d : DefaultRecord, s.table.operation = .idle →
        (action = 1 ∧ d.action = .forward ∧ d.level.val = level.toNat ∨ action = 4 ∧ d.action = .count ∧ d.level = 0 ∨
          action = 5 ∧ d.action = .discard ∧ d.level = 0) → d.hits = 0 →
        exec .writeDefault s = .next (({ s with table := s.table.setBank s.table.standby {
          s.table.bank s.table.standby with defaultRecord := d } } : State).answered q rest .ok
            [letter s.table.standby, s.table.generation])))

/-- READ-ENTRY reads any item of either bank in every bank-operation state, and its clear option sets that item's hits to 0 (R74,
R75, R146). -/
def Obligations.ReadEntryReportsOneItem : Prop :=
  ∀ (s : State) (q : QueuedRequest) (rest : List QueuedRequest) (bank item clear : Byte), s.Running → s.Head q rest →
    q.op = 0x02 → q.operands = [bank, item, clear] →
    (1 < bank.toNat ∨ 64 < item.toNat ∨ 1 < clear.toNat → exec .readEntry s = .next (s.answered q rest .illegal [])) ∧
    (∀ (id : BankId) (i : EntryId) (t : TableStore), bank = letter id → i.val = item.toNat → clear.toNat ≤ 1 →
      t = (if clear = 1 then s.table.setBank id { s.table.bank id with
        entries := put (s.table.bank id).entries i ((look (s.table.bank id).entries i).map uncounted) } else s.table) →
      exec .readEntry s = .next (({ s with table := t } : State).answered q rest .ok
        ([bank, if id = s.table.active then 1 else 2, s.table.generation, item] ++
          entryBytes (look (s.table.bank id).entries i)))) ∧
    (∀ (id : BankId) (t : TableStore), bank = letter id → item = 64 → clear.toNat ≤ 1 →
      t = (if clear = 1 then s.table.setBank id { s.table.bank id with
        defaultRecord := { (s.table.bank id).defaultRecord with hits := 0 } } else s.table) →
      exec .readEntry s = .next (({ s with table := t } : State).answered q rest .ok
        ([bank, if id = s.table.active then 1 else 2, s.table.generation, item] ++
          defaultRecordBytes (s.table.bank id).defaultRecord)))

/-! ### Management -/

/-- A VALID REQUEST takes a free reply slot and the tail of the request queue; with none free it is answered QUEUE-FULL from a free
refusal slot; with none of either it is discarded with MGMT-DROP (R140, R141). Which free slot it takes cannot be seen. -/
def Obligations.RequestsAreAcceptedOrRefused : Prop :=
  ∀ (s : State) (tag op : Byte) (operands : List Byte), s.Running → s.trunk.rx = .hunt → operands.length ≤ 24 →
    ((∃ i, look s.management.slots i = none) → ∃ i, look s.management.slots i = none ∧
      exec (.request tag op operands) s = .next { s with management := { s.management with
        slots := put s.management.slots i (some { tag := tag, op := op, progress := .queued })
        queue := s.management.queue ++ [{ slot := i, tag := tag, op := op, operands := operands }] } }) ∧
    ((∀ i, look s.management.slots i ≠ none) → (∃ i, look s.management.refusals i = none) →
      ∃ i, look s.management.refusals i = none ∧
        exec (.request tag op operands) s = .next { s with
          management := { s.management with refusals := put s.management.refusals i (some {
            tag := tag, op := op, status := .queueFull, data := [] }) }
          trunk := { s.trunk with replies := s.trunk.replies ++ [{
            source := .refusal i, reply := { tag := tag, op := op, status := .queueFull, data := [] } }] } }) ∧
    ((∀ i, look s.management.slots i ≠ none) → (∀ i, look s.management.refusals i ≠ none) →
      exec (.request tag op operands) s = .next (s.raiseTrunk .mgmtDrop))

/-- A head request of an unknown `op` is answered UNSUPPORTED and one of a wrong operand length MALFORMED, with no data, and
nothing else changes (R144); a command whose operation the head request does not name changes nothing
(notes/assumptions/6.md). -/
def Obligations.BadRequestsAreAnsweredAndChangeNothing : Prop :=
  (∀ (s : State) (q : QueuedRequest) (rest : List QueuedRequest), s.Running → s.Head q rest →
    ((q.op = 0 ∨ 0x15 < q.op.toNat) → exec .unsupportedOp s = .next (s.answered q rest .unsupported [])) ∧
    (∀ x ∈ fixedOperations, q.op = x.2.1 → q.operands.length ≠ x.2.2 →
      exec x.1 s = .next (s.answered q rest .malformed [])) ∧
    (q.op = 0x12 → (q.operands.length < 6 ∨ (operand q.operands 5).toNat + 6 ≠ q.operands.length ∨
        8 < (operand q.operands 5).toNat) →
      exec .inject s = .next (s.answered q rest .malformed [])) ∧
    (∀ scope, q.op = 0x15 → q.operands = [scope] → scope ≠ 1 → scope ≠ 2 →
      exec .resetTraffic s = .next (s.answered q rest .illegal []) ∧
      exec .resetFull s = .next (s.answered q rest .illegal []))) ∧
  (∀ s : State, s.Running →
    (∀ x ∈ fixedOperations, (∀ q rest, s.Head q rest → q.op ≠ x.2.1) → exec x.1 s = .next s) ∧
    ((∀ q rest, s.Head q rest → q.op ≠ 0x12) → exec .inject s = .next s) ∧
    ((∀ q rest, s.Head q rest → q.op ≠ 0 ∧ q.op.toNat ≤ 0x15) → exec .unsupportedOp s = .next s))

/-- IDENT answers the part's identity and capacities and changes nothing else (R145). -/
def Obligations.IdentReportsThePart : Prop :=
  ∀ (s : State) (q : QueuedRequest) (rest : List QueuedRequest), s.Running → s.Head q rest → q.op = 0x01 → q.operands = [] →
    exec .ident s = .next (s.answered q rest .ok [0x4A, 0x46, 0x09, 0x9C, 3, 6, 64, 2, 16, 128, 32, 4])

/-- READ-LEVEL, WRITE-LEVEL and READ-POOL (R98 to R100, R147). -/
def Obligations.LevelsAndPoolAreReadAndWritten : Prop :=
  (∀ (s : State) (q : QueuedRequest) (rest : List QueuedRequest) (level clear : Byte), s.Running → s.Head q rest →
    q.op = 0x08 → q.operands = [level, clear] →
    (15 < level.toNat ∨ 1 < clear.toNat → exec .readLevel s = .next (s.answered q rest .illegal [])) ∧
    (∀ (l : LevelId) (v : Level) (c : LevelCounts), l.val = level.toNat → clear.toNat ≤ 1 → v = s.levelAt l → c = v.counts →
      exec .readLevel s = .next ((s.setLevel l { v with counts := if clear = 1
          then { dispatched := 0, done := 0, rejected := 0, lapsed := 0, dropped := 0, flushed := 0,
                 highWater := BitVec.ofNat 16 v.queue.length }
          else c }).answered q rest .ok
        ([level, v.settings.limit, if v.settings.policy = .dropNew then 1 else 2, if v.settings.coalesce then 1 else 0,
          v.settings.timeout, v.settings.retries, if v.masked then 1 else 0, BitVec.ofNat 8 v.queue.length] ++
          numberBytes c.dispatched ++ numberBytes c.done ++ numberBytes c.rejected ++ numberBytes c.lapsed ++
          numberBytes c.dropped ++ numberBytes c.flushed ++ numberBytes c.highWater ++
          [((s.inServiceAt l).map ServiceRecord.ticket).getD 0,
           ((s.inServiceAt l).map fun r => r.phase.byte).getD 0])))) ∧
  (∀ (s : State) (q : QueuedRequest) (rest : List QueuedRequest) (level limit policy coalesce timeout retries : Byte),
    s.Running → s.Head q rest → q.op = 0x09 → q.operands = [level, limit, policy, coalesce, timeout, retries] →
    ((15 < level.toNat ∨ limit = 0 ∨ 32 < limit.toNat ∨ (policy ≠ 1 ∧ policy ≠ 2) ∨ 1 < coalesce.toNat ∨
        7 < retries.toNat) → exec .writeLevel s = .next (s.answered q rest .illegal [])) ∧
    (∀ l : LevelId, l.val = level.toNat → limit ≠ 0 → limit.toNat ≤ 32 → (policy = 1 ∨ policy = 2) → coalesce.toNat ≤ 1 →
      retries.toNat ≤ 7 →
      (limit.toNat < (s.levelAt l).queue.length → exec .writeLevel s = .next (s.answered q rest .conflict [])) ∧
      ((s.levelAt l).queue.length ≤ limit.toNat → exec .writeLevel s =
        .next ((s.setLevel l { s.levelAt l with settings := {
          limit := limit, policy := if policy = 1 then .dropNew else .dropOld, coalesce := decide (coalesce = 1),
          timeout := timeout, retries := retries } }).answered q rest .ok [])))) ∧
  (∀ (s : State) (q : QueuedRequest) (rest : List QueuedRequest), s.Running → s.Head q rest → q.op = 0x13 →
    q.operands = [] →
    exec .readPool s = .next ((s.setLevelUnit { s.levelUnit with
      lowWater := BitVec.ofNat 8 s.freeRecords, refusals := 0 }).answered q rest .ok
        ([BitVec.ofNat 8 s.freeRecords, BitVec.ofNat 8 s.pendingRecords, BitVec.ofNat 8 s.recordsInService,
          BitVec.ofNat 8 s.recordsInTransmission, s.levelUnit.lowWater] ++ numberBytes s.levelUnit.refusals)) ∧
    s.freeRecords = 128 - (s.pendingRecords + s.recordsInService + s.recordsInTransmission))

/-- SET-ORDER and MASK-LEVELS, and the ranking that L gives (R88, R104, R106, R147). -/
def Obligations.OrderAndMaskAreSet : Prop :=
  (∀ (s : State) (q : QueuedRequest) (rest : List QueuedRequest) (mode lowest nesting : Byte), s.Running → s.Head q rest →
    q.op = 0x0A → q.operands = [mode, lowest, nesting] →
    (((mode ≠ 1 ∧ mode ≠ 2) ∨ 15 < lowest.toNat ∨ (nesting ≠ 1 ∧ nesting ≠ 2)) →
      exec .setOrder s = .next (s.answered q rest .illegal [])) ∧
    (∀ l : LevelId, (mode = 1 ∨ mode = 2) → l.val = lowest.toNat → (nesting = 1 ∨ nesting = 2) →
      exec .setOrder s = .next (({ s with service := { s.service with
        mode := if mode = 1 then .fixed else .rotating
        lowest := l
        nesting := if nesting = 1 then .nested else .flat } } : State).answered q rest .ok
          [mode, lowest, nesting, BitVec.ofNat 8 s.service.lowest]))) ∧
  (∀ (s : State) (q : QueuedRequest) (rest : List QueuedRequest) (low high : Byte), s.Running → s.Head q rest →
    q.op = 0x0B → q.operands = [low, high] →
    exec .maskLevels s = .next ((s.setLevelUnit { s.levelUnit with
      levels := tabulate fun l => { s.levelAt l with
        masked := if l.val < 8 then low.getLsbD l else high.getLsbD (l.val - 8) } }).answered q rest .ok [low, high])) ∧
  (rankOrder 0 = [15, 14, 13, 12, 11, 10, 9, 8, 7, 6, 5, 4, 3, 2, 1, 0] ∧
    rankOrder 6 = [5, 4, 3, 2, 1, 0, 15, 14, 13, 12, 11, 10, 9, 8, 7, 6] ∧
    rankOrder 15 = [14, 13, 12, 11, 10, 9, 8, 7, 6, 5, 4, 3, 2, 1, 0, 15]) ∧
  (∀ lowest a b : LevelId, ranksAbove lowest a b = true ↔
    (lowest.val + 31 - a.val) % 16 < (lowest.val + 31 - b.val) % 16)

/-- FLUSH-LEVEL retires the record in service, frees every pending record with a RELEASE FLUSHED for each held one, from the head
to the tail, and counts them (R94, R97, R147). -/
def Obligations.FlushEmptiesTheLevel : Prop :=
  ∀ (s : State) (q : QueuedRequest) (rest : List QueuedRequest) (level : Byte), s.Running → s.Head q rest → q.op = 0x0C →
    q.operands = [level] →
    (15 < level.toNat → exec .flushLevel s = .next (s.answered q rest .illegal [])) ∧
    (∀ (l : LevelId) (base : State) (retired : Byte), l.val = level.toNat →
      ((s.inServiceAt l = none ∧ base = s ∧ retired = 0) ∨
        (∃ r, s.inServiceAt l = some r ∧ base = s.retire l r .flushed ∧ retired = 1)) →
      exec .flushLevel s = .next
        ((((s.levelAt l).queue.filter (·.kind == .held)).foldl
          (fun (t : State) r => t.requestRelease r.origin { node := r.node, code := r.code, seq := r.seq, outcome := .flushed })
          (base.setLevel l { base.levelAt l with
            queue := []
            counts := { (base.levelAt l).counts with
              flushed := BitVec.ofNat 16
                (min 65535 ((base.levelAt l).counts.flushed.toNat + (s.levelAt l).queue.length)) } })).answered q rest .ok
            [BitVec.ofNat 8 (s.levelAt l).queue.length, retired]))

/-- READ-PORT reports a port and clears its conditions; WRITE-PORT sets both settings, and a port being disabled loses its queues
and ends a RELEASE on the wire early (R18, R23 to R25, R148). -/
def Obligations.PortsAreReadAndConfigured : Prop :=
  (∀ (s : State) (q : QueuedRequest) (rest : List QueuedRequest) (port : Byte), s.Running → s.Head q rest → q.op = 0x0D →
    q.operands = [port] →
    (5 < port.toNat → exec .readPort s = .next (s.answered q rest .illegal [])) ∧
    (∀ (p : PortId) (x : FieldPort), p.val = port.toNat → x = look s.ports p →
      exec .readPort s = .next ((s.setPort p { x with conditions := 0 }).answered q rest .ok
        [port, x.stateByte, if x.enabled then 1 else 0, if x.noticeEnabled then 1 else 0,
          BitVec.ofNat 8 x.received.length, BitVec.ofNat 8 x.releases.length, x.conditions.zeroExtend 8]))) ∧
  (∀ (s : State) (q : QueuedRequest) (rest : List QueuedRequest) (port enabled notices : Byte), s.Running → s.Head q rest →
    q.op = 0x0E → q.operands = [port, enabled, notices] →
    (5 < port.toNat ∨ 1 < enabled.toNat ∨ 1 < notices.toNat →
      exec .writePort s = .next (s.answered q rest .illegal [])) ∧
    (∀ (p : PortId) (x y : FieldPort), p.val = port.toNat → notices.toNat ≤ 1 → x = look s.ports p →
      (enabled = 1 ∧ y = { x with enabled := true, noticeEnabled := decide (notices = 1) } ∨
        enabled = 0 ∧ x.enabled = false ∧ y = { x with noticeEnabled := decide (notices = 1) } ∨
        enabled = 0 ∧ x.enabled = true ∧ y = { x with
          enabled := false, noticeEnabled := decide (notices = 1), received := [], releases := [], headMarked := false,
          tx := x.tx.endedWith .abort }) →
      exec .writePort s = .next ((s.setPort p y).answered q rest .ok [port, y.stateByte])))

/-- READ-TRUNK reports the Trunk Port and clears its conditions and its stray count; NOTICE-ENABLE sets the five enables, and a
kind turned off loses its latch, its returned notice and the return of one on the wire (R127, R135, R148). That a NOTICE on the wire
is marked, and stays marked when its kind is turned on again, is the model's reading (notes/assumptions/20.md). -/
def Obligations.TrunkIsReadAndNoticesEnabled : Prop :=
  (∀ (s : State) (q : QueuedRequest) (rest : List QueuedRequest), s.Running → s.Head q rest → q.op = 0x0F →
    q.operands = [] →
    exec .readTrunk s = .next ((s.setTrunk { s.trunk with conditions := 0, strays := 0 }).answered q rest .ok
      ([if s.trunk.rx = .dead then 0 else 1, if s.trunk.pause = .running then 0 else 1,
        s.trunk.conditions.zeroExtend 8] ++ numberBytes s.trunk.strays))) ∧
  (∀ (s : State) (q : QueuedRequest) (rest : List QueuedRequest) (enables : Byte), s.Running → s.Head q rest →
    q.op = 0x14 → q.operands = [enables] →
    (31 < enables.toNat → exec .noticeEnable s = .next (s.answered q rest .illegal [])) ∧
    (∀ (t : State) (on : NoticeKind → Bool), enables.toNat ≤ 31 →
      (on .restarted = true ∧ on .port = enables.getLsbD 0 ∧ on .level = enables.getLsbD 1 ∧ on .lapse = enables.getLsbD 2 ∧
        on .pool = enables.getLsbD 3 ∧ on .trunk = enables.getLsbD 4) →
      t = { s with
        notices := { s.notices with
          enables := BitVec.ofNat 5 enables.toNat
          port := if on .port then s.notices.port else none
          level := if on .level then s.notices.level else none
          lapse := if on .lapse then s.notices.lapse else none
          pool := if on .pool then s.notices.pool else none
          trunk := if on .trunk then s.notices.trunk else none
          returned := s.notices.returned.filter fun f => on f.kind }
        trunk := { s.trunk with tx := { s.trunk.tx with sending := s.trunk.tx.sending.map fun f =>
          match f.granted with
          | .notice frame cancelled => { f with granted := .notice frame (cancelled || !on frame.kind) }
          | .reply => f
          | .resend _ _ => f
          | .dispatch _ _ => f } } } →
      exec .noticeEnable s = .next (t.answered q rest .ok [enables])))

/-- READ-CONDITION reports a slot and changes none; CLEAR-CONDITION gives one slot, or all, the cleared form (R69, R70, R148). -/
def Obligations.ConditionSlotsAreReadAndCleared : Prop :=
  (∀ (s : State) (q : QueuedRequest) (rest : List QueuedRequest) (slot : Byte), s.Running → s.Head q rest → q.op = 0x10 →
    q.operands = [slot] →
    (31 < slot.toNat → exec .readCondition s = .next (s.answered q rest .illegal [])) ∧
    (∀ (i : SlotId) (x : ConditionSlot) (now : Byte), i.val = slot.toNat → x = look s.conditions i →
      (x.state = .unknown ∧ now = 0 ∨ x.state = .asserted ∧ now = 1 ∨ x.state = .cleared ∧ now = 2) →
      (x.last = none → exec .readCondition s = .next (s.answered q rest .ok
        ([slot, now, 0, 0, 0] ++ numberBytes x.changes ++ [x.absorbed]))) ∧
      (∀ r node, x.last = some (r, node) → exec .readCondition s = .next (s.answered q rest .ok
        ([slot, now, 1, BitVec.ofNat 8 r, node] ++ numberBytes x.changes ++ [x.absorbed]))))) ∧
  (∀ (s : State) (q : QueuedRequest) (rest : List QueuedRequest) (slot : Byte), s.Running → s.Head q rest → q.op = 0x11 →
    q.operands = [slot] →
    (31 < slot.toNat → slot ≠ 0xFF → exec .clearCondition s = .next (s.answered q rest .illegal [])) ∧
    (slot = 0xFF → exec .clearCondition s =
      .next (({ s with conditions := tabulate fun _ => clearedSlot } : State).answered q rest .ok [])) ∧
    (∀ i : SlotId, i.val = slot.toNat → exec .clearCondition s =
      .next ((s.setCondition i clearedSlot).answered q rest .ok [])))

/-- INJECT fills an empty injection slot and is answered later, and is answered BUSY or ILLEGAL else (R57, R149); the completion
of its classification produces the reply with the decider, the action, the outcome and the generation (R58). -/
def Obligations.InjectFillsTheSlotAndIsAnsweredLater : Prop :=
  (∀ (s : State) (q : QueuedRequest) (rest : List QueuedRequest) (node high low cond seq plen : Byte) (payload : List Byte),
    s.Running → s.Head q rest → q.op = 0x12 → q.operands = node :: high :: low :: cond :: seq :: plen :: payload →
    payload.length = plen.toNat → plen.toNat ≤ 8 →
    (2 < cond.toNat ∨ 15 < seq.toNat → exec .inject s = .next (s.answered q rest .illegal [])) ∧
    (∀ c : Cond, cond.toNat = (condCode c).toNat → seq.toNat ≤ 15 →
      (s.classifier.injection ≠ none → exec .inject s = .next (s.answered q rest .busy [])) ∧
      (s.classifier.injection = none → exec .inject s =
        .next (({ s with classifier := { s.classifier with
          injection := some {
            event := { node := node, code := joinBytes high low, cond := c, seq := BitVec.ofNat 4 seq.toNat,
                       payload := payload },
            reply := { slot := q.slot, tag := q.tag } } } } : State).deferred q rest)))) ∧
  (∀ (s hit : State) (f : FlightEvent) (r : PendingReply) (d : Decision), s.Running → s.classifier.inFlight = some f →
    f.reply = some r → s.table.operation.isSwapPending = false →
    d = (s.table.bank f.bank).lookup f.requester f.event →
    hit = { s with
      table := s.table.setBank f.bank ((s.table.bank f.bank).countHit d.decider)
      classifier := { s.classifier with inFlight := none } } →
    (d.action = .count → exec .classificationCompletes s = .next (hit.repliedLater r 0x12 .ok
      [(d.decider.map fun i : EntryId => byteOf i).getD 0xFF, 4, 7, f.generation])) ∧
    (d.action = .discard → exec .classificationCompletes s = .next (hit.repliedLater r 0x12 .ok
      [(d.decider.map fun i : EntryId => byteOf i).getD 0xFF, 5, 8, f.generation])) ∧
    (∀ l t o, d.action = .forward l → hit.admission (f.request .posted l) = (t, o) →
      exec .classificationCompletes s = .next (t.repliedLater r 0x12 .ok
        [(d.decider.map fun i : EntryId => byteOf i).getD 0xFF, 1, outcomeCode o, f.generation])) ∧
    (∀ l t o, d.action = .hold l → hit.admission (f.request .held l) = (t, o) →
      exec .classificationCompletes s = .next (t.repliedLater r 0x12 .ok
        [(d.decider.map fun i : EntryId => byteOf i).getD 0xFF, 2, outcomeCode o, f.generation])) ∧
    (∀ l i t o, d.action = .track l i → hit.track f l i = (t, o) →
      exec .classificationCompletes s = .next (t.repliedLater r 0x12 .ok
        [(d.decider.map fun i : EntryId => byteOf i).getD 0xFF, 3, outcomeCode o, f.generation])))

/-- A TRAFFIC reset discards the traffic, keeps the tables, settings, counts and reports, and answers the abandoned INJECTs, the
pending swap and itself, in that order (R29, R47, R60, R71, R83, R101, R122, R138, R150). -/
def Obligations.TrafficResetDiscardsTheTraffic : Prop :=
  ∀ (s cleared first second swapped : State) (q : QueuedRequest) (rest : List QueuedRequest), s.Running → s.Head q rest →
    q.op = 0x15 → q.operands = [1] →
    cleared = { s with
      ports := tabulate fun p => { look s.ports p with received := [], releases := [], headMarked := false }
      classifier := { inFlight := none, pointer := 0, injection := none }
      conditions := tabulate fun _ => clearedSlot
      levelUnit := { s.levelUnit with
        levels := tabulate fun l => { s.levelAt l with queue := [] }, inTransmission := none, lowWater := 128 }
      service := { s.service with inService := tabulate fun _ => none, ticketCounter := 0 }
      trunk := { s.trunk with pause := .running } } →
    first = ((s.classifier.inFlight.bind FlightEvent.reply).map fun r => cleared.repliedLater r 0x12 .conflict []).getD
      cleared →
    second = ((s.classifier.injection.map InjectedEvent.reply).map fun r => first.repliedLater r 0x12 .conflict []).getD
      first →
    ((∀ r, s.table.operation = .swapPending r → swapped =
        ({ second with table := s.table.exchanged } : State).repliedLater r 0x07 .ok
          [s.table.generation + 1, letter s.table.exchanged.active]) ∧
      (s.table.operation.isSwapPending = false → swapped = second)) →
    exec .resetTraffic s = .next (swapped.answered q rest .ok [])

/-- A FULL reset gives every unit its initial state but the line receivers, ends every frame on the wire early, loses every
request, and latches RESTARTED with its tag (R28, R46, R61, R71, R84, R102, R123, R137, R151). -/
def Obligations.FullResetGivesTheInitialState : Prop :=
  ∀ (s : State) (q : QueuedRequest) (rest : List QueuedRequest), s.Running → s.Head q rest → q.op = 0x15 →
    q.operands = [2] →
    exec .resetFull s = .next { pinReset { fields := Vector.replicate 6 false, trunk := false } s.pending with
      ports := tabulate fun p => { pinPort (look s.ports p).rx with tx := (look s.ports p).tx.endedWith .abort }
      trunk := { rx := s.trunk.rx, conditions := 0, strays := 0, pause := .running,
                 tx := s.trunk.tx.endedWith .abort, replies := [] }
      notices := pinNotices .full q.tag }

/-! ### Sending -/

/-- A port that is UP starts the RELEASE at the head of its queue, marks it, and removes it when the frame has been sent; without
these conditions nothing starts (R20, R21). -/
def Obligations.ReleasesAreSentInOrder : Prop :=
  (∀ (s : State) (p : PortId) (q : ReleaseRequest) (rest : List ReleaseRequest), s.Running →
    (look s.ports p).enabled = true → (look s.ports p).rx ≠ .dead → (look s.ports p).tx.sending = none →
    (look s.ports p).releases = q :: rest → (look s.ports p).headMarked = false →
    exec (.releaseTransmissionStart p) s = .next (s.setPort p { look s.ports p with
      headMarked := true
      tx := { (look s.ports p).tx with sending := some (closeFrame ([0x52, q.node] ++ numberBytes q.code ++
        [(match q.outcome with
          | .done => 0x10
          | .refused => 0x20
          | .lapsed => 0x30
          | .flushed => 0x40) + q.seq.zeroExtend 8])) } })) ∧
  (∀ (s : State) (p : PortId), s.Running →
    ((look s.ports p).enabled = false ∨ (look s.ports p).rx = .dead ∨ (look s.ports p).tx.sending ≠ none ∨
      (look s.ports p).releases = [] ∨ (look s.ports p).headMarked = true) →
    exec (.releaseTransmissionStart p) s = .next s) ∧
  (∀ (s : State) (p : PortId), s.Running →
    ((look s.ports p).tx.sending ≠ none →
      exec (.releaseCompletes p) s = .next (s.setPort p { look s.ports p with
        releases := if (look s.ports p).headMarked = true then (look s.ports p).releases.drop 1
          else (look s.ports p).releases
        headMarked := false
        tx := { sending := none, closing := .endMarker } })) ∧
    ((look s.ports p).tx.sending = none → exec (.releaseCompletes p) s = .next s))

/-- REPLY_GRANT sends the oldest reply; NOTICE_GRANT, when no reply is ready, the returned notice, or else the first latched kind
in its order, frozen with the counter, which rises (R130, R132, R134). -/
def Obligations.RepliesGoFirstThenNotices : Prop :=
  (∀ (s : State) (r : ProducedReply) (rest : List ProducedReply), s.Running → s.trunk.rx ≠ .dead →
    s.trunk.tx.sending = none → s.trunk.replies = r :: rest →
    exec .replyGrant s = .next (s.onTrunk .reply (replyFrame r.reply)) ∧ exec .noticeGrant s = .next s) ∧
  (∀ s : State, s.Running → s.trunk.rx ≠ .dead → s.trunk.tx.sending = none → s.trunk.replies = [] →
    exec .replyGrant s = .next s ∧
    (∀ f, s.notices.returned = some f → exec .noticeGrant s =
      .next (({ s with notices := { s.notices with returned := none } } : State).onTrunk (.notice f false)
        (noticeFrame f))) ∧
    (s.notices.returned = none → (∀ kind, s.notices.latched kind = false) → exec .noticeGrant s = .next s) ∧
    (∀ (n : NoticeUnit) (kind : NoticeKind) (data : List Byte) (f : NoticeFrame), s.notices.returned = none →
      ((∃ x, s.notices.restarted = some x ∧ kind = .restarted ∧
          n = { s.notices with restarted := none, nseq := s.notices.nseq + 1 } ∧
          data = [if x.cause = .power then 1 else 2, x.tag]) ∨
        (∃ x, s.notices.restarted = none ∧ s.notices.trunk = some x ∧ kind = .trunk ∧
          n = { s.notices with trunk := none, nseq := s.notices.nseq + 1 } ∧ data = [x.zeroExtend 8]) ∨
        (∃ x, s.notices.restarted = none ∧ s.notices.trunk = none ∧ s.notices.pool = some x ∧ kind = .pool ∧
          n = { s.notices with pool := none, nseq := s.notices.nseq + 1 } ∧ data = [x, BitVec.ofNat 8 s.freeRecords]) ∨
        (∃ x, s.notices.restarted = none ∧ s.notices.trunk = none ∧ s.notices.pool = none ∧ s.notices.lapse = some x ∧
          kind = .lapse ∧ n = { s.notices with lapse := none, nseq := s.notices.nseq + 1 } ∧
          data = [x.count, x.ticket, BitVec.ofNat 8 x.level]) ∨
        (∃ x, s.notices.restarted = none ∧ s.notices.trunk = none ∧ s.notices.pool = none ∧ s.notices.lapse = none ∧
          s.notices.level = some x ∧ kind = .level ∧
          n = { s.notices with level := none, nseq := s.notices.nseq + 1 } ∧
          data = [BitVec.ofNat 8 (x.toNat % 256), BitVec.ofNat 8 (x.toNat / 256)]) ∨
        (∃ x, s.notices.restarted = none ∧ s.notices.trunk = none ∧ s.notices.pool = none ∧ s.notices.lapse = none ∧
          s.notices.level = none ∧ s.notices.port = some x ∧ kind = .port ∧
          n = { s.notices with port := none, nseq := s.notices.nseq + 1 } ∧ data = [x.zeroExtend 8])) →
      f = { kind := kind, nseq := s.notices.nseq, data := data } →
      exec .noticeGrant s =
        .next (({ s with notices := n } : State).onTrunk (.notice f false) (noticeFrame f)))) ∧
  (∀ s : State, s.Running → (s.trunk.rx = .dead ∨ s.trunk.tx.sending ≠ none) →
    exec .replyGrant s = .next s ∧ exec .noticeGrant s = .next s ∧ exec .resendGrant s = .next s ∧
    exec .dispatchGrant s = .next s)

/-- RESEND_GRANT sends again the record in RESEND-WAIT that ranks highest; DISPATCH_GRANT, when none waits, the head record of the
candidate that ranks highest, a held one with a new ticket (R107 to R109, R114, R129, R130). -/
def Obligations.ResendsGoAheadOfDispatches : Prop :=
  (∀ (s : State) (l : LevelId) (r : ServiceRecord), s.Running → s.EventsMayGo → s.inServiceAt l = some r →
    s.Highest (fun m => s.waitsForResend m = true) l →
    exec .resendGrant s = .next ((s.setInService l (some { r with phase := .resending, attempt := r.attempt + 1 })).onTrunk
      (.resend l r.ticket) (upEventFrame r.record r.ticket (r.attempt + 1))) ∧
    exec .dispatchGrant s = .next s) ∧
  (∀ s : State, (∀ l, s.waitsForResend l = true ↔ ∃ r, s.inServiceAt l = some r ∧ r.phase = .resendWait)) ∧
  (∀ (s : State) (l : LevelId) (r : Record) (rest : List Record), s.Running → s.EventsMayGo →
    (∀ m, s.waitsForResend m = false) → s.Highest s.Candidate l → (s.levelAt l).queue = r :: rest →
    exec .resendGrant s = .next s ∧
    (r.kind = .posted → exec .dispatchGrant s = .next (({ s with levelUnit := { s.levelUnit with
      levels := put s.levelUnit.levels l { s.levelAt l with queue := rest }
      inTransmission := some r } } : State).onTrunk (.dispatch l none) (upEventFrame r 0 1))) ∧
    (r.kind = .held → exec .dispatchGrant s = .next (({ s with
      levelUnit := { s.levelUnit with levels := put s.levelUnit.levels l { s.levelAt l with
        queue := rest
        counts := { (s.levelAt l).counts with dispatched := satInc (s.levelAt l).counts.dispatched } } }
      service := { s.service with
        inService := put s.service.inService l (some
          { record := r, ticket := s.newTicket, attempt := 1, phase := .dispatching })
        ticketCounter := s.newTicket } } : State).onTrunk (.dispatch l (some s.newTicket))
          (upEventFrame r s.newTicket 1)))) ∧
  (∀ s : State, s.Running → (s.trunk.replies ≠ [] ∨ s.notices.returned ≠ none ∨
      (∃ kind, s.notices.latched kind = true) ∨ s.trunk.pause ≠ .running) →
    exec .resendGrant s = .next s ∧ exec .dispatchGrant s = .next s) ∧
  (∀ s : State, s.Running → (∀ l, ¬s.Candidate l) → exec .dispatchGrant s = .next s)

/-- The ticket of a held grant is the first number from the counter on, with 255 followed by 1, that no record in service holds; it
lies in 1 to 255 (R109). -/
def Obligations.NewTicketIsTheNextFreeNumber : Prop :=
  ∀ (s : State) (inUse : Byte → Prop), (inUse = fun t => ∃ l r, s.inServiceAt l = some r ∧ r.ticket = t) →
    s.newTicket ≠ 0 ∧ ¬inUse s.newTicket ∧
    ∃ n, n ≤ 16 ∧
      s.newTicket = (fun t : Byte => if t = 255 then 1 else t + 1)^[n + 1] s.service.ticketCounter ∧
      ∀ m, m < n → inUse ((fun t : Byte => if t = 255 then 1 else t + 1)^[m + 1] s.service.ticketCounter)

/-- The ends of transmissions: a reply leaves its class and frees its slot, a notice is done with, a posted record is freed and its
level served, a held one waits with its timer; a report that names a record no longer there changes nothing more (R95, R110, R112,
R115, R131, R143). -/
def Obligations.TransmissionEndsReachTheirOwner : Prop :=
  (∀ (s : State) (r : ProducedReply) (rest : List ProducedReply), s.Running → s.onWire = some .reply →
    s.trunk.replies = r :: rest →
    (∀ i, r.source = .reply i → exec .replyCompletes s = .next { s.trunkIdle with
      trunk := { s.trunkIdle.trunk with replies := rest }
      management := { s.management with slots := put s.management.slots i none } }) ∧
    (∀ i, r.source = .refusal i → exec .replyCompletes s = .next { s.trunkIdle with
      trunk := { s.trunkIdle.trunk with replies := rest }
      management := { s.management with refusals := put s.management.refusals i none } })) ∧
  (∀ (s : State) (f : NoticeFrame) (cancelled : Bool), s.Running → s.onWire = some (.notice f cancelled) →
    exec .noticeCompletes s = .next s.trunkIdle) ∧
  (∀ (s : State) (l : LevelId), s.Running → s.onWire = some (.dispatch l none) →
    (∀ r, s.levelUnit.inTransmission = some r → exec .firstTransmissionEnds s = .next { s.trunkIdle with
      levelUnit := { s.levelUnit with
        inTransmission := none
        levels := put s.levelUnit.levels r.level { s.levelAt r.level with
          counts := { (s.levelAt r.level).counts with
            dispatched := satInc (s.levelAt r.level).counts.dispatched } } }
      service := { s.service with
        lowest := if s.service.mode = .rotating then r.level else s.service.lowest } }) ∧
    (s.levelUnit.inTransmission = none → exec .firstTransmissionEnds s = .next s.trunkIdle)) ∧
  (∀ (s : State) (l : LevelId) (ticket : Byte) (timer : Option Byte) (c : Instr) (phase : SubState), s.Running →
    (c = .firstTransmissionEnds ∧ phase = .dispatching ∧ s.onWire = some (.dispatch l (some ticket)) ∨
      c = .resendEnds ∧ phase = .resending ∧ s.onWire = some (.resend l ticket)) →
    (timer = if (s.levelAt l).settings.timeout = 0 then none else some (s.levelAt l).settings.timeout) →
    (∀ r, s.inServiceAt l = some r → r.ticket = ticket → r.phase = phase →
      exec c s = .next (s.trunkIdle.setInService l (some { r with phase := .awaiting timer }))) ∧
    ((∀ r, s.inServiceAt l = some r → r.ticket ≠ ticket) → exec c s = .next s.trunkIdle)) ∧
  (∀ s : State, s.Running →
    (s.onWire ≠ some .reply → exec .replyCompletes s = .next s) ∧
    ((∀ f c, s.onWire ≠ some (.notice f c)) → exec .noticeCompletes s = .next s) ∧
    ((∀ l t, s.onWire ≠ some (.dispatch l t)) → exec .firstTransmissionEnds s = .next s) ∧
    ((∀ l t, s.onWire ≠ some (.resend l t)) → exec .resendEnds s = .next s))

/-- The layouts of the frames the part sends (R13, section 1.7), each with a check that a receiver of it accepts. -/
def Obligations.SentFramesFollowTheirLayouts : Prop :=
  (∀ (r : Record) (ticket attempt : Byte), upEventFrame r ticket attempt = closeFrame
    ([0x61, BitVec.ofNat 8 ((if 2 ≤ attempt.toNat then 32 else 0) + (if r.kind = .held then 16 else 0) + r.level.val),
      ticket, attempt, BitVec.ofNat 8 r.origin, r.node] ++ numberBytes r.code ++
      [BitVec.ofNat 8 ((condCode r.cond).toNat * 64 + r.seq.toNat), r.repeats, r.gen,
        BitVec.ofNat 8 r.payload.length] ++ r.payload) ∧
    (upEventFrame r ticket attempt).length = 14 + r.payload.length) ∧
  (∀ q : ReleaseRequest, releaseFrame q = closeFrame ([0x52, q.node] ++ numberBytes q.code ++
      [(match q.outcome with
        | .done => 0x10
        | .refused => 0x20
        | .lapsed => 0x30
        | .flushed => 0x40) + q.seq.zeroExtend 8]) ∧
    (releaseFrame q).length = 7) ∧
  (∀ r : Reply, replyFrame r = closeFrame ([0x72, r.tag, r.op, statusCode r.status, BitVec.ofNat 8 r.data.length] ++ r.data)) ∧
  (∀ n : NoticeFrame, noticeFrame n = closeFrame ([0x73, (match n.kind with
      | .restarted => 1
      | .port => 2
      | .level => 3
      | .lapse => 4
      | .pool => 5
      | .trunk => 6), n.nseq, BitVec.ofNat 8 n.data.length] ++ n.data)) ∧
  ([Status.ok, .illegal, .busy, .conflict, .unsupported, .malformed, .queueFull].map statusCode = [0, 1, 2, 3, 4, 5, 6]) ∧
  (∀ body : List Byte, crcRun 0xFFFF (closeFrame body) = 0)

/-! ### What every step keeps -/

/-- The ports' queues keep their bounds, and a DISABLED port holds nothing (R16, R19, R20, R25). -/
def Obligations.EveryStepKeepsThePorts : Prop :=
  ∀ s t : State, s.PortsKept → step s = .next t → t.PortsKept

/-- Every valid entry is legal (R41), the event in flight has noted the ACTIVE bank (R52), a swap is pending only while an event is
in flight (R79, R80), a copy has made an image as far as it has come (R78). -/
def Obligations.EveryStepKeepsTheTable : Prop :=
  (∀ s t : State, s.DefinitionsLegal → step s = .next t → t.DefinitionsLegal) ∧
  (∀ s t : State, s.TableKept → step s = .next t → t.TableKept)

/-- No queue holds more than its level's `limit`, or more than its high-water count shows (R87, R88); every record is where its
level and kind say (R85, R86). -/
def Obligations.EveryStepKeepsTheLevels : Prop :=
  (∀ s t : State, s.LevelsKept → step s = .next t → t.LevelsKept) ∧
  (∀ s t : State, s.RecordsKept → step s = .next t → t.RecordsKept)

/-- The pool has no more than 128 records (R85), and the low-water mark is no greater than the number of free ones (R93); no two
held records that are pending or in service are duplicates (R87, R91). -/
def Obligations.EveryStepKeepsThePool : Prop :=
  (∀ s t : State, s.PoolKept → step s = .next t → t.PoolKept) ∧
  (∀ s t : State, s.NoHeldTwice → step s = .next t → t.NoHeldTwice)

/-- The tickets in service are distinct and lie in 1 to 255, and no record is transmitted more than 8 times (R103, R114). -/
def Obligations.EveryStepKeepsTheService : Prop :=
  ∀ s t : State, s.ServiceKept → step s = .next t → t.ServiceKept

/-- Frames go out only while the link is UP, one notice at most is returned, and a kind that is off has none (R130, R134, R135);
every held reply slot stands for exactly one request in exactly one progress state (R139); while a pin reset's RESTARTED notice is
latched, the link is DOWN and no request, reply or frame is ahead of it (R136, R153, R156). -/
def Obligations.EveryStepKeepsTrunkAndSlots : Prop :=
  (∀ s t : State, s.TrunkKept → step s = .next t → t.TrunkKept) ∧
  (∀ s t : State, s.SlotsKept → step s = .next t → t.SlotsKept) ∧
  (∀ s t : State, s.RestartedGoesFirst → step s = .next t → t.RestartedGoesFirst)
end

