-- ==== Sys2Proof/Laws/State.lean ====
section
/-!
SUPPORT. One lemma per field per update of State: what the update gives to its own field, and that it leaves the others.
-/

namespace Sys2Proof.Machine

variable (s : State)

/-! ### setPort -/

@[simp] theorem State.setPort_resetHeld (p : PortId) (x : FieldPort) : (s.setPort p x).resetHeld = s.resetHeld := rfl
@[simp] theorem State.setPort_ports (p : PortId) (x : FieldPort) : (s.setPort p x).ports = put s.ports p x := rfl
@[simp] theorem State.setPort_classifier (p : PortId) (x : FieldPort) : (s.setPort p x).classifier = s.classifier := rfl
@[simp] theorem State.setPort_table (p : PortId) (x : FieldPort) : (s.setPort p x).table = s.table := rfl
@[simp] theorem State.setPort_conditions (p : PortId) (x : FieldPort) : (s.setPort p x).conditions = s.conditions := rfl
@[simp] theorem State.setPort_levelUnit (p : PortId) (x : FieldPort) : (s.setPort p x).levelUnit = s.levelUnit := rfl
@[simp] theorem State.setPort_service (p : PortId) (x : FieldPort) : (s.setPort p x).service = s.service := rfl
@[simp] theorem State.setPort_trunk (p : PortId) (x : FieldPort) : (s.setPort p x).trunk = s.trunk := rfl
@[simp] theorem State.setPort_notices (p : PortId) (x : FieldPort) : (s.setPort p x).notices = s.notices := rfl
@[simp] theorem State.setPort_management (p : PortId) (x : FieldPort) : (s.setPort p x).management = s.management := rfl
@[simp] theorem State.setPort_pending (p : PortId) (x : FieldPort) : (s.setPort p x).pending = s.pending := rfl
@[simp] theorem State.setPort_levelAt (p : PortId) (x : FieldPort) (m : LevelId) :
    (s.setPort p x).levelAt m = s.levelAt m := rfl
@[simp] theorem State.setPort_inServiceAt (p : PortId) (x : FieldPort) (m : LevelId) :
    (s.setPort p x).inServiceAt m = s.inServiceAt m := rfl

/-! ### setClassifier -/

@[simp] theorem State.setClassifier_resetHeld (x : Classifier) : (s.setClassifier x).resetHeld = s.resetHeld := rfl
@[simp] theorem State.setClassifier_ports (x : Classifier) : (s.setClassifier x).ports = s.ports := rfl
@[simp] theorem State.setClassifier_classifier (x : Classifier) : (s.setClassifier x).classifier = x := rfl
@[simp] theorem State.setClassifier_table (x : Classifier) : (s.setClassifier x).table = s.table := rfl
@[simp] theorem State.setClassifier_conditions (x : Classifier) : (s.setClassifier x).conditions = s.conditions := rfl
@[simp] theorem State.setClassifier_levelUnit (x : Classifier) : (s.setClassifier x).levelUnit = s.levelUnit := rfl
@[simp] theorem State.setClassifier_service (x : Classifier) : (s.setClassifier x).service = s.service := rfl
@[simp] theorem State.setClassifier_trunk (x : Classifier) : (s.setClassifier x).trunk = s.trunk := rfl
@[simp] theorem State.setClassifier_notices (x : Classifier) : (s.setClassifier x).notices = s.notices := rfl
@[simp] theorem State.setClassifier_management (x : Classifier) : (s.setClassifier x).management = s.management := rfl
@[simp] theorem State.setClassifier_pending (x : Classifier) : (s.setClassifier x).pending = s.pending := rfl
@[simp] theorem State.setClassifier_levelAt (x : Classifier) (m : LevelId) : (s.setClassifier x).levelAt m = s.levelAt m := rfl
@[simp] theorem State.setClassifier_inServiceAt (x : Classifier) (m : LevelId) :
    (s.setClassifier x).inServiceAt m = s.inServiceAt m := rfl

/-! ### setTable -/

@[simp] theorem State.setTable_resetHeld (x : TableStore) : (s.setTable x).resetHeld = s.resetHeld := rfl
@[simp] theorem State.setTable_ports (x : TableStore) : (s.setTable x).ports = s.ports := rfl
@[simp] theorem State.setTable_classifier (x : TableStore) : (s.setTable x).classifier = s.classifier := rfl
@[simp] theorem State.setTable_table (x : TableStore) : (s.setTable x).table = x := rfl
@[simp] theorem State.setTable_conditions (x : TableStore) : (s.setTable x).conditions = s.conditions := rfl
@[simp] theorem State.setTable_levelUnit (x : TableStore) : (s.setTable x).levelUnit = s.levelUnit := rfl
@[simp] theorem State.setTable_service (x : TableStore) : (s.setTable x).service = s.service := rfl
@[simp] theorem State.setTable_trunk (x : TableStore) : (s.setTable x).trunk = s.trunk := rfl
@[simp] theorem State.setTable_notices (x : TableStore) : (s.setTable x).notices = s.notices := rfl
@[simp] theorem State.setTable_management (x : TableStore) : (s.setTable x).management = s.management := rfl
@[simp] theorem State.setTable_pending (x : TableStore) : (s.setTable x).pending = s.pending := rfl
@[simp] theorem State.setTable_levelAt (x : TableStore) (m : LevelId) : (s.setTable x).levelAt m = s.levelAt m := rfl
@[simp] theorem State.setTable_inServiceAt (x : TableStore) (m : LevelId) :
    (s.setTable x).inServiceAt m = s.inServiceAt m := rfl

/-! ### setCondition -/

@[simp] theorem State.setCondition_resetHeld (i : SlotId) (x : ConditionSlot) :
    (s.setCondition i x).resetHeld = s.resetHeld := rfl
@[simp] theorem State.setCondition_ports (i : SlotId) (x : ConditionSlot) : (s.setCondition i x).ports = s.ports := rfl
@[simp] theorem State.setCondition_classifier (i : SlotId) (x : ConditionSlot) :
    (s.setCondition i x).classifier = s.classifier := rfl
@[simp] theorem State.setCondition_table (i : SlotId) (x : ConditionSlot) : (s.setCondition i x).table = s.table := rfl
@[simp] theorem State.setCondition_conditions (i : SlotId) (x : ConditionSlot) :
    (s.setCondition i x).conditions = put s.conditions i x := rfl
@[simp] theorem State.setCondition_levelUnit (i : SlotId) (x : ConditionSlot) :
    (s.setCondition i x).levelUnit = s.levelUnit := rfl
@[simp] theorem State.setCondition_service (i : SlotId) (x : ConditionSlot) : (s.setCondition i x).service = s.service := rfl
@[simp] theorem State.setCondition_trunk (i : SlotId) (x : ConditionSlot) : (s.setCondition i x).trunk = s.trunk := rfl
@[simp] theorem State.setCondition_notices (i : SlotId) (x : ConditionSlot) : (s.setCondition i x).notices = s.notices := rfl
@[simp] theorem State.setCondition_management (i : SlotId) (x : ConditionSlot) :
    (s.setCondition i x).management = s.management := rfl
@[simp] theorem State.setCondition_pending (i : SlotId) (x : ConditionSlot) : (s.setCondition i x).pending = s.pending := rfl
@[simp] theorem State.setCondition_levelAt (i : SlotId) (x : ConditionSlot) (m : LevelId) :
    (s.setCondition i x).levelAt m = s.levelAt m := rfl
@[simp] theorem State.setCondition_inServiceAt (i : SlotId) (x : ConditionSlot) (m : LevelId) :
    (s.setCondition i x).inServiceAt m = s.inServiceAt m := rfl

/-! ### setLevelUnit -/

@[simp] theorem State.setLevelUnit_resetHeld (x : LevelUnit) : (s.setLevelUnit x).resetHeld = s.resetHeld := rfl
@[simp] theorem State.setLevelUnit_ports (x : LevelUnit) : (s.setLevelUnit x).ports = s.ports := rfl
@[simp] theorem State.setLevelUnit_classifier (x : LevelUnit) : (s.setLevelUnit x).classifier = s.classifier := rfl
@[simp] theorem State.setLevelUnit_table (x : LevelUnit) : (s.setLevelUnit x).table = s.table := rfl
@[simp] theorem State.setLevelUnit_conditions (x : LevelUnit) : (s.setLevelUnit x).conditions = s.conditions := rfl
@[simp] theorem State.setLevelUnit_levelUnit (x : LevelUnit) : (s.setLevelUnit x).levelUnit = x := rfl
@[simp] theorem State.setLevelUnit_service (x : LevelUnit) : (s.setLevelUnit x).service = s.service := rfl
@[simp] theorem State.setLevelUnit_trunk (x : LevelUnit) : (s.setLevelUnit x).trunk = s.trunk := rfl
@[simp] theorem State.setLevelUnit_notices (x : LevelUnit) : (s.setLevelUnit x).notices = s.notices := rfl
@[simp] theorem State.setLevelUnit_management (x : LevelUnit) : (s.setLevelUnit x).management = s.management := rfl
@[simp] theorem State.setLevelUnit_pending (x : LevelUnit) : (s.setLevelUnit x).pending = s.pending := rfl
@[simp] theorem State.setLevelUnit_inServiceAt (x : LevelUnit) (m : LevelId) :
    (s.setLevelUnit x).inServiceAt m = s.inServiceAt m := rfl

/-! ### setLevel -/

@[simp] theorem State.setLevel_resetHeld (l : LevelId) (x : Level) : (s.setLevel l x).resetHeld = s.resetHeld := rfl
@[simp] theorem State.setLevel_ports (l : LevelId) (x : Level) : (s.setLevel l x).ports = s.ports := rfl
@[simp] theorem State.setLevel_classifier (l : LevelId) (x : Level) : (s.setLevel l x).classifier = s.classifier := rfl
@[simp] theorem State.setLevel_table (l : LevelId) (x : Level) : (s.setLevel l x).table = s.table := rfl
@[simp] theorem State.setLevel_conditions (l : LevelId) (x : Level) : (s.setLevel l x).conditions = s.conditions := rfl
@[simp] theorem State.setLevel_levelUnit (l : LevelId) (x : Level) :
    (s.setLevel l x).levelUnit = { s.levelUnit with levels := put s.levelUnit.levels l x } := rfl
@[simp] theorem State.setLevel_service (l : LevelId) (x : Level) : (s.setLevel l x).service = s.service := rfl
@[simp] theorem State.setLevel_trunk (l : LevelId) (x : Level) : (s.setLevel l x).trunk = s.trunk := rfl
@[simp] theorem State.setLevel_notices (l : LevelId) (x : Level) : (s.setLevel l x).notices = s.notices := rfl
@[simp] theorem State.setLevel_management (l : LevelId) (x : Level) : (s.setLevel l x).management = s.management := rfl
@[simp] theorem State.setLevel_pending (l : LevelId) (x : Level) : (s.setLevel l x).pending = s.pending := rfl
@[simp] theorem State.setLevel_inServiceAt (l : LevelId) (x : Level) (m : LevelId) :
    (s.setLevel l x).inServiceAt m = s.inServiceAt m := rfl

/-! ### setService -/

@[simp] theorem State.setService_resetHeld (x : ServiceUnit) : (s.setService x).resetHeld = s.resetHeld := rfl
@[simp] theorem State.setService_ports (x : ServiceUnit) : (s.setService x).ports = s.ports := rfl
@[simp] theorem State.setService_classifier (x : ServiceUnit) : (s.setService x).classifier = s.classifier := rfl
@[simp] theorem State.setService_table (x : ServiceUnit) : (s.setService x).table = s.table := rfl
@[simp] theorem State.setService_conditions (x : ServiceUnit) : (s.setService x).conditions = s.conditions := rfl
@[simp] theorem State.setService_levelUnit (x : ServiceUnit) : (s.setService x).levelUnit = s.levelUnit := rfl
@[simp] theorem State.setService_service (x : ServiceUnit) : (s.setService x).service = x := rfl
@[simp] theorem State.setService_trunk (x : ServiceUnit) : (s.setService x).trunk = s.trunk := rfl
@[simp] theorem State.setService_notices (x : ServiceUnit) : (s.setService x).notices = s.notices := rfl
@[simp] theorem State.setService_management (x : ServiceUnit) : (s.setService x).management = s.management := rfl
@[simp] theorem State.setService_pending (x : ServiceUnit) : (s.setService x).pending = s.pending := rfl
@[simp] theorem State.setService_levelAt (x : ServiceUnit) (m : LevelId) : (s.setService x).levelAt m = s.levelAt m := rfl

/-! ### setInService -/

@[simp] theorem State.setInService_resetHeld (l : LevelId) (x : Option ServiceRecord) :
    (s.setInService l x).resetHeld = s.resetHeld := rfl
@[simp] theorem State.setInService_ports (l : LevelId) (x : Option ServiceRecord) : (s.setInService l x).ports = s.ports := rfl
@[simp] theorem State.setInService_classifier (l : LevelId) (x : Option ServiceRecord) :
    (s.setInService l x).classifier = s.classifier := rfl
@[simp] theorem State.setInService_table (l : LevelId) (x : Option ServiceRecord) : (s.setInService l x).table = s.table := rfl
@[simp] theorem State.setInService_conditions (l : LevelId) (x : Option ServiceRecord) :
    (s.setInService l x).conditions = s.conditions := rfl
@[simp] theorem State.setInService_levelUnit (l : LevelId) (x : Option ServiceRecord) :
    (s.setInService l x).levelUnit = s.levelUnit := rfl
@[simp] theorem State.setInService_service (l : LevelId) (x : Option ServiceRecord) :
    (s.setInService l x).service = { s.service with inService := put s.service.inService l x } := rfl
@[simp] theorem State.setInService_trunk (l : LevelId) (x : Option ServiceRecord) : (s.setInService l x).trunk = s.trunk := rfl
@[simp] theorem State.setInService_notices (l : LevelId) (x : Option ServiceRecord) :
    (s.setInService l x).notices = s.notices := rfl
@[simp] theorem State.setInService_management (l : LevelId) (x : Option ServiceRecord) :
    (s.setInService l x).management = s.management := rfl
@[simp] theorem State.setInService_pending (l : LevelId) (x : Option ServiceRecord) :
    (s.setInService l x).pending = s.pending := rfl
@[simp] theorem State.setInService_levelAt (l : LevelId) (x : Option ServiceRecord) (m : LevelId) :
    (s.setInService l x).levelAt m = s.levelAt m := rfl

/-! ### setTrunk -/

@[simp] theorem State.setTrunk_resetHeld (x : TrunkPort) : (s.setTrunk x).resetHeld = s.resetHeld := rfl
@[simp] theorem State.setTrunk_ports (x : TrunkPort) : (s.setTrunk x).ports = s.ports := rfl
@[simp] theorem State.setTrunk_classifier (x : TrunkPort) : (s.setTrunk x).classifier = s.classifier := rfl
@[simp] theorem State.setTrunk_table (x : TrunkPort) : (s.setTrunk x).table = s.table := rfl
@[simp] theorem State.setTrunk_conditions (x : TrunkPort) : (s.setTrunk x).conditions = s.conditions := rfl
@[simp] theorem State.setTrunk_levelUnit (x : TrunkPort) : (s.setTrunk x).levelUnit = s.levelUnit := rfl
@[simp] theorem State.setTrunk_service (x : TrunkPort) : (s.setTrunk x).service = s.service := rfl
@[simp] theorem State.setTrunk_trunk (x : TrunkPort) : (s.setTrunk x).trunk = x := rfl
@[simp] theorem State.setTrunk_notices (x : TrunkPort) : (s.setTrunk x).notices = s.notices := rfl
@[simp] theorem State.setTrunk_management (x : TrunkPort) : (s.setTrunk x).management = s.management := rfl
@[simp] theorem State.setTrunk_pending (x : TrunkPort) : (s.setTrunk x).pending = s.pending := rfl
@[simp] theorem State.setTrunk_levelAt (x : TrunkPort) (m : LevelId) : (s.setTrunk x).levelAt m = s.levelAt m := rfl
@[simp] theorem State.setTrunk_inServiceAt (x : TrunkPort) (m : LevelId) :
    (s.setTrunk x).inServiceAt m = s.inServiceAt m := rfl

/-! ### setNotices -/

@[simp] theorem State.setNotices_resetHeld (x : NoticeUnit) : (s.setNotices x).resetHeld = s.resetHeld := rfl
@[simp] theorem State.setNotices_ports (x : NoticeUnit) : (s.setNotices x).ports = s.ports := rfl
@[simp] theorem State.setNotices_classifier (x : NoticeUnit) : (s.setNotices x).classifier = s.classifier := rfl
@[simp] theorem State.setNotices_table (x : NoticeUnit) : (s.setNotices x).table = s.table := rfl
@[simp] theorem State.setNotices_conditions (x : NoticeUnit) : (s.setNotices x).conditions = s.conditions := rfl
@[simp] theorem State.setNotices_levelUnit (x : NoticeUnit) : (s.setNotices x).levelUnit = s.levelUnit := rfl
@[simp] theorem State.setNotices_service (x : NoticeUnit) : (s.setNotices x).service = s.service := rfl
@[simp] theorem State.setNotices_trunk (x : NoticeUnit) : (s.setNotices x).trunk = s.trunk := rfl
@[simp] theorem State.setNotices_notices (x : NoticeUnit) : (s.setNotices x).notices = x := rfl
@[simp] theorem State.setNotices_management (x : NoticeUnit) : (s.setNotices x).management = s.management := rfl
@[simp] theorem State.setNotices_pending (x : NoticeUnit) : (s.setNotices x).pending = s.pending := rfl
@[simp] theorem State.setNotices_levelAt (x : NoticeUnit) (m : LevelId) : (s.setNotices x).levelAt m = s.levelAt m := rfl
@[simp] theorem State.setNotices_inServiceAt (x : NoticeUnit) (m : LevelId) :
    (s.setNotices x).inServiceAt m = s.inServiceAt m := rfl

/-! ### setManagement -/

@[simp] theorem State.setManagement_resetHeld (x : Management) : (s.setManagement x).resetHeld = s.resetHeld := rfl
@[simp] theorem State.setManagement_ports (x : Management) : (s.setManagement x).ports = s.ports := rfl
@[simp] theorem State.setManagement_classifier (x : Management) : (s.setManagement x).classifier = s.classifier := rfl
@[simp] theorem State.setManagement_table (x : Management) : (s.setManagement x).table = s.table := rfl
@[simp] theorem State.setManagement_conditions (x : Management) : (s.setManagement x).conditions = s.conditions := rfl
@[simp] theorem State.setManagement_levelUnit (x : Management) : (s.setManagement x).levelUnit = s.levelUnit := rfl
@[simp] theorem State.setManagement_service (x : Management) : (s.setManagement x).service = s.service := rfl
@[simp] theorem State.setManagement_trunk (x : Management) : (s.setManagement x).trunk = s.trunk := rfl
@[simp] theorem State.setManagement_notices (x : Management) : (s.setManagement x).notices = s.notices := rfl
@[simp] theorem State.setManagement_management (x : Management) : (s.setManagement x).management = x := rfl
@[simp] theorem State.setManagement_pending (x : Management) : (s.setManagement x).pending = s.pending := rfl
@[simp] theorem State.setManagement_levelAt (x : Management) (m : LevelId) : (s.setManagement x).levelAt m = s.levelAt m := rfl
@[simp] theorem State.setManagement_inServiceAt (x : Management) (m : LevelId) :
    (s.setManagement x).inServiceAt m = s.inServiceAt m := rfl

/-! ### withPending -/

@[simp] theorem State.withPending_resetHeld (x : List Instr) : (s.withPending x).resetHeld = s.resetHeld := rfl
@[simp] theorem State.withPending_ports (x : List Instr) : (s.withPending x).ports = s.ports := rfl
@[simp] theorem State.withPending_classifier (x : List Instr) : (s.withPending x).classifier = s.classifier := rfl
@[simp] theorem State.withPending_table (x : List Instr) : (s.withPending x).table = s.table := rfl
@[simp] theorem State.withPending_conditions (x : List Instr) : (s.withPending x).conditions = s.conditions := rfl
@[simp] theorem State.withPending_levelUnit (x : List Instr) : (s.withPending x).levelUnit = s.levelUnit := rfl
@[simp] theorem State.withPending_service (x : List Instr) : (s.withPending x).service = s.service := rfl
@[simp] theorem State.withPending_trunk (x : List Instr) : (s.withPending x).trunk = s.trunk := rfl
@[simp] theorem State.withPending_notices (x : List Instr) : (s.withPending x).notices = s.notices := rfl
@[simp] theorem State.withPending_management (x : List Instr) : (s.withPending x).management = s.management := rfl
@[simp] theorem State.withPending_pending (x : List Instr) : (s.withPending x).pending = x := rfl
@[simp] theorem State.withPending_levelAt (x : List Instr) (m : LevelId) : (s.withPending x).levelAt m = s.levelAt m := rfl
@[simp] theorem State.withPending_inServiceAt (x : List Instr) (m : LevelId) :
    (s.withPending x).inServiceAt m = s.inServiceAt m := rfl

end Sys2Proof.Machine
end

