-- ==== Sys2Proof/Laws/Ops.lean ====
section
/-!
SUPPORT. Tables, saturating counts, sets and bytes; the levels and the in-service table under their updates; what a command does
while RESET_N is held low and while it is not.
-/

namespace Sys2Proof.Machine

/-! ### Tables -/

variable {α : Type} {n : Nat}

@[simp] theorem look_put_self (v : Vector α n) (i : Fin n) (x : α) : look (put v i x) i = x := by simp [look, put]

theorem look_put_ne (v : Vector α n) {i j : Fin n} (x : α) (h : i ≠ j) : look (put v i x) j = look v j := by
  simp only [look, put, Fin.getElem_fin, Vector.getElem_set]
  simp [Fin.val_ne_of_ne h]

theorem look_put (v : Vector α n) (i j : Fin n) (x : α) : look (put v i x) j = if i = j then x else look v j := by
  split
  · next h => subst h; exact look_put_self v i x
  · next h => exact look_put_ne v x h

@[simp] theorem look_tabulate (f : Fin n → α) (i : Fin n) : look (tabulate f) i = f i := by simp [look, tabulate]

@[simp] theorem look_replicate (x : α) (i : Fin n) : look (Vector.replicate n x) i = x := by simp [look]

/-- Two tables with the same item at every index are equal. -/
theorem table_ext {v w : Vector α n} (h : ∀ i, look v i = look w i) : v = w := by
  ext i hi
  exact h ⟨i, hi⟩

@[simp] theorem put_look (v : Vector α n) (i : Fin n) : put v i (look v i) = v :=
  table_ext fun j => by rw [look_put]; split <;> simp_all

@[simp] theorem put_put (v : Vector α n) (i : Fin n) (x y : α) : put (put v i x) i y = put v i y :=
  table_ext fun j => by simp only [look_put]; split <;> rfl

theorem tabulate_const (x : α) : (tabulate fun _ : Fin n => x) = Vector.replicate n x := table_ext fun i => by simp

@[simp] theorem tabulate_look (v : Vector α n) : (tabulate fun i => look v i) = v := table_ext fun i => by simp

/-! ### Counts and sets -/

theorem satInc_ne_zero {w : Nat} (hw : 0 < w) (x : BitVec w) : satInc x ≠ 0 := by
  unfold satInc
  split
  · next h =>
    subst h
    intro h
    have := congrArg BitVec.toNat h
    simp at this
    have : 2 ≤ 2 ^ w := Nat.le_self_pow (by omega) 2
    omega
  · next h =>
    intro h'
    apply h
    have h1 : x = -1 := by
      have := congrArg (· + -1) h'
      simpa [BitVec.add_assoc] using this
    simpa [BitVec.neg_one_eq_allOnes] using h1

@[simp] theorem member_insertMember_self {w : Nat} (x : BitVec w) {i : Nat} (h : i < w) :
    member (insertMember x i) i = true := by
  simp [member, insertMember, h]

theorem member_insertMember_ne {w : Nat} (x : BitVec w) {i j : Nat} (h : i ≠ j) :
    member (insertMember x i) j = member x j := by
  simp [member, insertMember, h]

theorem insertMember_idem {w : Nat} (x : BitVec w) (i : Nat) : insertMember (insertMember x i) i = insertMember x i := by
  simp [insertMember, BitVec.or_assoc]

/-! ### Bytes -/

@[simp] theorem joinBytes_parts (h : Half) : joinBytes (hiByte h) (loByte h) = h := by
  refine BitVec.eq_of_getLsbD_eq fun i hi => ?_
  simp only [joinBytes, hiByte, loByte, BitVec.getLsbD_append, BitVec.getLsbD_extractLsb']
  by_cases h8 : i < 8
  · simp [h8]
  · simp [h8, show i - 8 < 8 by omega, show 8 + (i - 8) = i by omega]

theorem getLsbD_joinBytes (hi lo : Byte) (i : Nat) :
    (joinBytes hi lo).getLsbD i = if i < 8 then lo.getLsbD i else hi.getLsbD (i - 8) :=
  (BitVec.getLsbD_append (x := hi) (y := lo) (i := i)).trans (by by_cases h : i < 8 <;> simp [h])

@[simp] theorem hiByte_join (hi lo : Byte) : hiByte (joinBytes hi lo) = hi := by
  refine BitVec.eq_of_getLsbD_eq fun i h => ?_
  rw [hiByte, BitVec.getLsbD_extractLsb', getLsbD_joinBytes]
  simp [h]

@[simp] theorem loByte_join (hi lo : Byte) : loByte (joinBytes hi lo) = lo := by
  refine BitVec.eq_of_getLsbD_eq fun i h => ?_
  rw [loByte, BitVec.getLsbD_extractLsb', getLsbD_joinBytes]
  simp [h]

/-! ### Levels and the in-service table -/

@[simp] theorem State.setLevel_levelAt_self (s : State) (l : LevelId) (x : Level) : (s.setLevel l x).levelAt l = x := by
  simp [State.levelAt]

theorem State.setLevel_levelAt (s : State) (l m : LevelId) (x : Level) :
    (s.setLevel l x).levelAt m = if l = m then x else s.levelAt m := by
  simp [State.levelAt, look_put]

@[simp] theorem State.setInService_inServiceAt_self (s : State) (l : LevelId) (x : Option ServiceRecord) :
    (s.setInService l x).inServiceAt l = x := by
  simp [State.inServiceAt]

theorem State.setInService_inServiceAt (s : State) (l m : LevelId) (x : Option ServiceRecord) :
    (s.setInService l x).inServiceAt m = if l = m then x else s.inServiceAt m := by
  simp [State.inServiceAt, look_put]

@[simp] theorem State.setPort_self (s : State) (p : PortId) : s.setPort p (look s.ports p) = s := by
  simp [State.setPort]

@[simp] theorem State.setTrunk_self (s : State) : s.setTrunk s.trunk = s := rfl

@[simp] theorem State.setLevel_self (s : State) (l : LevelId) : s.setLevel l (s.levelAt l) = s := by
  simp [State.setLevel, State.levelAt]

/-! ### While RESET_N is held low, and while it is not -/

theorem whenRunning_held {s : State} (h : s.resetHeld = true) (effect : State → State) : whenRunning s effect = .next s := by
  simp [whenRunning, h]

theorem whenRunning_running {s : State} (h : s.resetHeld = false) (effect : State → State) :
    whenRunning s effect = .next (effect s) := by
  simp [whenRunning, h]

/-- What `whenRunning` answers: the state itself, or the effect while RESET_N is not held low. -/
theorem whenRunning_cases {s t : State} {effect : State → State} (h : whenRunning s effect = .next t) :
    (s.resetHeld = true ∧ t = s) ∨ (s.resetHeld = false ∧ t = effect s) := by
  unfold whenRunning at h
  cases hs : s.resetHeld <;> simp_all

end Sys2Proof.Machine
end

