-- ==== Sys2Proof/Laws/Effects.lean ====
section
/-!
SUPPORT. What the shared operations touch: each one's frame is an equation that rebuilds its result from the state before it and
the fields it may change, so that a proof reads every other field off by `rw`; and the operations commute with an update of a
unit that they neither read nor write.
-/

namespace Sys2Proof.Machine

/-! ### Sticky conditions -/

theorem State.raisePort_frame (s : State) (p : PortId) (c : PortCondition) :
    s.raisePort p c = { s with ports := (s.raisePort p c).ports, notices := (s.raisePort p c).notices } := by
  unfold State.raisePort
  by_cases h : member (look s.ports p).conditions c.bit <;> by_cases h' : (look s.ports p).noticeEnabled <;>
    simp [h, h'] <;> rfl

theorem State.raiseTrunk_frame (s : State) (c : TrunkCondition) :
    s.raiseTrunk c = { s with trunk := (s.raiseTrunk c).trunk, notices := (s.raiseTrunk c).notices } := by
  unfold State.raiseTrunk
  split <;> rfl

theorem State.raiseStray_frame (s : State) :
    s.raiseStray = { s with trunk := s.raiseStray.trunk, notices := s.raiseStray.notices } := by
  unfold State.raiseStray
  exact State.raiseTrunk_frame _ _

/-- Raising a condition of a port changes its conditions alone, among the ports. -/
theorem State.raisePort_look (s : State) (p q : PortId) (c : PortCondition) :
    look (s.raisePort p c).ports q =
      { look s.ports q with conditions := (look (s.raisePort p c).ports q).conditions } := by
  unfold State.raisePort
  by_cases h : member (look s.ports p).conditions c.bit
  · simp [h]
  · by_cases hp : p = q
    · subst hp
      by_cases h' : (look s.ports p).noticeEnabled <;> simp [h, h']
    · by_cases h' : (look s.ports p).noticeEnabled <;> simp [h, h', look_put, hp]

theorem State.raisePort_setManagement (s : State) (m : Management) (p : PortId) (c : PortCondition) :
    (s.setManagement m).raisePort p c = (s.raisePort p c).setManagement m := by
  unfold State.raisePort
  by_cases h : member (look s.ports p).conditions c.bit <;> by_cases h' : (look s.ports p).noticeEnabled <;>
    simp [h, h'] <;> rfl

/-! ### Release requests -/

@[simp] theorem portOf_castLE (p : PortId) : portOf (p.castLE (by decide)) = some p := by
  simp [portOf]

@[simp] theorem portOf_internal : portOf 6 = none := rfl

theorem portOf_eq_some {r : Requester} {p : PortId} (h : portOf r = some p) : r = p.castLE (by decide) := by
  unfold portOf at h
  split at h
  · injection h with h
    subst h
    rfl
  · cases h

theorem portOf_eq_none {r : Requester} (h : portOf r = none) : r = 6 := by
  unfold portOf at h
  split at h
  · cases h
  · exact Fin.ext (by simp; omega)

theorem State.requestRelease_frame (s : State) (o : Requester) (q : ReleaseRequest) :
    s.requestRelease o q =
      { s with ports := (s.requestRelease o q).ports, notices := (s.requestRelease o q).notices } := by
  unfold State.requestRelease
  cases portOf o with
  | none => rfl
  | some p =>
    by_cases h : (look s.ports p).enabled
    · by_cases h' : (look s.ports p).releases.length < Config.releaseCapacity
      · simp [h, h']; rfl
      · simpa [h, h'] using State.raisePort_frame s p .releaseLost
    · simp [h]

@[simp] theorem State.requestRelease_levelAt (s : State) (o : Requester) (q : ReleaseRequest) (l : LevelId) :
    (s.requestRelease o q).levelAt l = s.levelAt l := by
  rw [State.requestRelease_frame]; rfl

@[simp] theorem State.requestRelease_inServiceAt (s : State) (o : Requester) (q : ReleaseRequest) (l : LevelId) :
    (s.requestRelease o q).inServiceAt l = s.inServiceAt l := by
  rw [State.requestRelease_frame]; rfl

@[simp] theorem State.requestRelease_levelUnit (s : State) (o : Requester) (q : ReleaseRequest) :
    (s.requestRelease o q).levelUnit = s.levelUnit := by
  rw [State.requestRelease_frame]

@[simp] theorem State.requestRelease_service (s : State) (o : Requester) (q : ReleaseRequest) :
    (s.requestRelease o q).service = s.service := by
  rw [State.requestRelease_frame]

@[simp] theorem State.requestRelease_trunk (s : State) (o : Requester) (q : ReleaseRequest) :
    (s.requestRelease o q).trunk = s.trunk := by
  rw [State.requestRelease_frame]

@[simp] theorem State.requestRelease_management (s : State) (o : Requester) (q : ReleaseRequest) :
    (s.requestRelease o q).management = s.management := by
  rw [State.requestRelease_frame]

theorem State.requestRelease_setManagement (s : State) (m : Management) (o : Requester) (q : ReleaseRequest) :
    (s.setManagement m).requestRelease o q = (s.requestRelease o q).setManagement m := by
  unfold State.requestRelease
  cases portOf o with
  | none => rfl
  | some p =>
    simp only [State.setManagement_ports, State.raisePort_setManagement]
    by_cases h : (look s.ports p).enabled <;>
      by_cases h' : (look s.ports p).releases.length < Config.releaseCapacity <;> simp [h, h'] <;> rfl

theorem State.releaseIfHeld_frame (s : State) (r : Record) (o : ReleaseOutcome) :
    s.releaseIfHeld r o = { s with ports := (s.releaseIfHeld r o).ports, notices := (s.releaseIfHeld r o).notices } := by
  unfold State.releaseIfHeld
  cases r.kind
  · rfl
  · exact State.requestRelease_frame _ _ _

@[simp] theorem State.releaseIfHeld_levelAt (s : State) (r : Record) (o : ReleaseOutcome) (l : LevelId) :
    (s.releaseIfHeld r o).levelAt l = s.levelAt l := by
  rw [State.releaseIfHeld_frame]; rfl

@[simp] theorem State.releaseIfHeld_inServiceAt (s : State) (r : Record) (o : ReleaseOutcome) (l : LevelId) :
    (s.releaseIfHeld r o).inServiceAt l = s.inServiceAt l := by
  rw [State.releaseIfHeld_frame]; rfl

@[simp] theorem State.releaseIfHeld_levelUnit (s : State) (r : Record) (o : ReleaseOutcome) :
    (s.releaseIfHeld r o).levelUnit = s.levelUnit := by
  rw [State.releaseIfHeld_frame]

theorem State.releaseIfHeld_held {r : Record} (h : r.kind = .held) (s : State) (o : ReleaseOutcome) :
    s.releaseIfHeld r o = s.requestRelease r.origin (releaseOf r o) := by
  simp [State.releaseIfHeld, h]

theorem State.releaseIfHeld_posted {r : Record} (h : r.kind = .posted) (s : State) (o : ReleaseOutcome) :
    s.releaseIfHeld r o = s := by
  simp [State.releaseIfHeld, h]

/-! ### Admission -/

theorem State.countDrop_frame (s : State) (l : LevelId) :
    s.countDrop l = { s with levelUnit := (s.countDrop l).levelUnit, notices := (s.countDrop l).notices } := rfl

theorem State.refusePool_frame (s : State) (q : Record) :
    s.refusePool q =
      { s with
        levelUnit := { s.levelUnit with refusals := satInc s.levelUnit.refusals }
        ports := (s.refusePool q).ports
        notices := (s.refusePool q).notices } := by
  unfold State.refusePool
  exact State.releaseIfHeld_frame _ _ _

theorem State.lowerMark_frame (s : State) :
    s.lowerMark = { s with levelUnit := { s.levelUnit with lowWater := s.lowerMark.levelUnit.lowWater } } := by
  unfold State.lowerMark
  split <;> rfl

theorem State.allocate_frame (s : State) (q : Record) :
    (s.allocate q).1 =
      { s with
        ports := (s.allocate q).1.ports
        levelUnit := (s.allocate q).1.levelUnit
        notices := (s.allocate q).1.notices } := by
  unfold State.allocate
  by_cases h : s.freeRecords = 0
  · simp only [if_pos h]
    rw [State.refusePool_frame]
  · simp only [if_neg h]
    rw [State.lowerMark_frame]; rfl

theorem State.displaceHead_frame (s : State) (l : LevelId) :
    s.displaceHead l =
      { s with
        ports := (s.displaceHead l).ports
        levelUnit := (s.displaceHead l).levelUnit
        notices := (s.displaceHead l).notices } := by
  unfold State.displaceHead
  cases (s.levelAt l).queue with
  | nil => rfl
  | cons r rs => simp only []; rw [State.releaseIfHeld_frame]; rfl

theorem State.admitToRoom_frame (s : State) (q : Record) :
    (s.admitToRoom q).1 =
      { s with
        ports := (s.admitToRoom q).1.ports
        levelUnit := (s.admitToRoom q).1.levelUnit
        notices := (s.admitToRoom q).1.notices } := by
  unfold State.admitToRoom
  by_cases h : s.hasRoom q.level
  · simp only [h, if_true]
    exact State.allocate_frame _ _
  · simp only [h]
    cases (s.levelAt q.level).settings.policy
    · show State.releaseIfHeld _ _ _ = _
      rw [State.releaseIfHeld_frame]; rfl
    · have key : ∀ t : State, (∃ P L N, t = { s with ports := P, levelUnit := L, notices := N }) →
          (t.allocate q).1 =
            { s with
              ports := (t.allocate q).1.ports
              levelUnit := (t.allocate q).1.levelUnit
              notices := (t.allocate q).1.notices } := by
        rintro _ ⟨P, L, N, rfl⟩
        exact State.allocate_frame _ _
      exact key _ ⟨_, _, _, State.displaceHead_frame s q.level⟩

theorem State.coalesce_frame {s t : State} {q : Record} (h : s.coalesce q = some t) :
    t = { s with levelUnit := t.levelUnit } := by
  unfold State.coalesce at h
  split at h
  · obtain ⟨queue, -, rfl⟩ := Option.map_eq_some_iff.mp h
    rfl
  · cases h

/-- An admission changes the ports (their release queues and conditions), the Level Unit and the notices, and nothing else. -/
theorem State.admission_frame (s : State) (q : Record) :
    (s.admission q).1 =
      { s with
        ports := (s.admission q).1.ports
        levelUnit := (s.admission q).1.levelUnit
        notices := (s.admission q).1.notices } := by
  unfold State.admission
  cases h : s.coalesce q with
  | some t =>
    show t = { s with ports := t.ports, levelUnit := t.levelUnit, notices := t.notices }
    rw [State.coalesce_frame h]
  | none =>
    by_cases hd : s.isDuplicate q
    · simp [hd]
    · simpa [hd] using State.admitToRoom_frame s q

theorem State.abortReturn_frame (s : State) (r : Record) :
    s.abortReturn r =
      { s with
        ports := (s.abortReturn r).ports
        levelUnit := (s.abortReturn r).levelUnit
        notices := (s.abortReturn r).notices } := by
  unfold State.abortReturn
  by_cases h : (s.levelAt r.level).settings.limit.toNat < (s.levelAt r.level).queue.length + 1
  · simp only [if_pos h]
    rw [State.releaseIfHeld_frame]; rfl
  · simp only [if_neg h]; rfl

/-! ### What an admission neither reads nor writes -/

/-- `s` with every field that admissions, release requests and sticky port conditions neither read nor write taken from `o`. -/
def State.outside (s o : State) : State :=
  { s with
    resetHeld := o.resetHeld
    classifier := o.classifier
    table := o.table
    conditions := o.conditions
    trunk := o.trunk
    management := o.management
    pending := o.pending }

@[simp] theorem State.outside_levelAt (s o : State) (l : LevelId) : (s.outside o).levelAt l = s.levelAt l := rfl

@[simp] theorem State.outside_inServiceAt (s o : State) (l : LevelId) : (s.outside o).inServiceAt l = s.inServiceAt l := rfl

@[simp] theorem State.outside_self (s : State) : s.outside s = s := rfl

theorem State.raisePort_outside (s o : State) (p : PortId) (c : PortCondition) :
    (s.outside o).raisePort p c = (s.raisePort p c).outside o := by
  unfold State.raisePort
  by_cases h : member (look s.ports p).conditions c.bit <;> by_cases h' : (look s.ports p).noticeEnabled <;>
    simp [State.outside, h, h'] <;> rfl

theorem State.requestRelease_outside (s o : State) (r : Requester) (q : ReleaseRequest) :
    (s.outside o).requestRelease r q = (s.requestRelease r q).outside o := by
  unfold State.requestRelease
  cases portOf r with
  | none => rfl
  | some p =>
    by_cases h : (look s.ports p).enabled
    · by_cases h' : (look s.ports p).releases.length < Config.releaseCapacity
      · simp [State.outside, h, h']; rfl
      · have := State.raisePort_outside s o p .releaseLost
        simp only [State.outside, h, h'] at this ⊢
        exact this
    · simp [State.outside, h]

theorem State.releaseIfHeld_outside (s o : State) (r : Record) (out : ReleaseOutcome) :
    (s.outside o).releaseIfHeld r out = (s.releaseIfHeld r out).outside o := by
  unfold State.releaseIfHeld
  cases r.kind
  · rfl
  · exact State.requestRelease_outside _ _ _ _

theorem State.lowerMark_outside (s o : State) : (s.outside o).lowerMark = s.lowerMark.outside o := by
  unfold State.lowerMark
  by_cases h : s.freeRecords < s.levelUnit.lowWater.toNat
  · rw [if_pos h, if_pos (show (s.outside o).freeRecords < (s.outside o).levelUnit.lowWater.toNat from h)]; rfl
  · rw [if_neg h, if_neg (show ¬(s.outside o).freeRecords < (s.outside o).levelUnit.lowWater.toNat from h)]

theorem State.refusePool_outside (s o : State) (q : Record) :
    (s.outside o).refusePool q = (s.refusePool q).outside o := by
  unfold State.refusePool
  exact State.releaseIfHeld_outside
    ((s.setLevelUnit { s.levelUnit with refusals := satInc s.levelUnit.refusals }).setNotices s.notices.poolCause) o q .refused

theorem State.allocate_outside (s o : State) (q : Record) :
    (s.outside o).allocate q = ((s.allocate q).1.outside o, (s.allocate q).2) := by
  unfold State.allocate
  by_cases h : s.freeRecords = 0
  · rw [if_pos h, if_pos (show (s.outside o).freeRecords = 0 from h)]
    exact congrArg (·, ActionOutcome.refusedPool) (State.refusePool_outside s o q)
  · rw [if_neg h, if_neg (show ¬(s.outside o).freeRecords = 0 from h)]
    exact congrArg (·, ActionOutcome.queued) (State.lowerMark_outside (s.enqueue q) o)

theorem State.displaceHead_outside (s o : State) (l : LevelId) :
    (s.outside o).displaceHead l = (s.displaceHead l).outside o := by
  unfold State.displaceHead
  rw [State.outside_levelAt]
  cases (s.levelAt l).queue with
  | nil => rfl
  | cons r rs =>
    exact State.releaseIfHeld_outside ((s.setLevel l { s.levelAt l with queue := rs }).countDrop l) o r .refused

theorem State.admitToRoom_outside (s o : State) (q : Record) :
    (s.outside o).admitToRoom q = ((s.admitToRoom q).1.outside o, (s.admitToRoom q).2) := by
  unfold State.admitToRoom
  rw [show (s.outside o).hasRoom q.level = s.hasRoom q.level from rfl, State.outside_levelAt]
  by_cases h : s.hasRoom q.level
  · simp only [h, if_true]
    exact State.allocate_outside _ _ _
  · simp only [h]
    cases (s.levelAt q.level).settings.policy
    · exact congrArg (·, _) (State.releaseIfHeld_outside (s.countDrop q.level) o q .refused)
    · exact (congrArg (State.allocate · q) (State.displaceHead_outside s o q.level)).trans (State.allocate_outside _ _ _)

theorem State.coalesce_outside (s o : State) (q : Record) :
    (s.outside o).coalesce q = (s.coalesce q).map (State.outside · o) := by
  unfold State.coalesce
  rw [show (s.outside o).mayCoalesceNow q = s.mayCoalesceNow q from rfl, State.outside_levelAt]
  by_cases h : s.mayCoalesceNow q
  · simp only [h, if_true, Option.map_map]; rfl
  · simp [h]

/-- An admission decides and changes the same whatever the fields that it neither reads nor writes hold. -/
theorem State.admission_outside (s o : State) (q : Record) :
    (s.outside o).admission q = ((s.admission q).1.outside o, (s.admission q).2) := by
  unfold State.admission
  rw [State.coalesce_outside, show (s.outside o).isDuplicate q = s.isDuplicate q from rfl]
  cases s.coalesce q with
  | some t => rfl
  | none =>
    by_cases h : s.isDuplicate q
    · simp [h]
    · simpa [h] using State.admitToRoom_outside s o q

/-! ### Actions of a decision -/

/-- An admission does not read the tables or the Classifier. -/
theorem State.admission_unread (s : State) (t : TableStore) (c : Classifier) (q : Record) :
    ({ s with table := t, classifier := c } : State).admission q =
      ({ (s.admission q).1 with table := t, classifier := c }, (s.admission q).2) := by
  have h := State.admission_outside s { s with table := t, classifier := c } q
  have h' := State.admission_frame s q
  refine h.trans (Prod.ext ?_ rfl)
  show State.outside (s.admission q).1 _ = _
  generalize (s.admission q).1 = u at h'
  rw [h']
  rfl

theorem State.trackChange_unread (s : State) (t : TableStore) (c : Classifier) (f : FlightEvent) (l : LevelId) (i : SlotId) :
    ({ s with table := t, classifier := c } : State).trackChange f l i =
      ({ (s.trackChange f l i).1 with table := t, classifier := c }, (s.trackChange f l i).2) := by
  unfold State.trackChange
  rw [State.admission_unread]
  by_cases h : (s.admission (f.changeRequest l (look s.conditions i))).2 = .queued
  · simp only [h, if_true]; rfl
  · simp only [h, if_false]

theorem State.track_unread (s : State) (t : TableStore) (c : Classifier) (f : FlightEvent) (l : LevelId) (i : SlotId) :
    ({ s with table := t, classifier := c } : State).track f l i =
      ({ (s.track f l i).1 with table := t, classifier := c }, (s.track f l i).2) := by
  unfold State.track
  by_cases h : (look s.conditions i).state = trackStateOf f.event.cond
  · simp only [h, if_true]; rfl
  · simp only [h, if_false]
    exact State.trackChange_unread s t c f l i

/-- Carrying out an action does not read the tables or the Classifier. -/
theorem State.carryOut_unread (s : State) (t : TableStore) (c : Classifier) (f : FlightEvent) (a : EntryAction) :
    ({ s with table := t, classifier := c } : State).carryOut f a =
      ({ (s.carryOut f a).1 with table := t, classifier := c }, (s.carryOut f a).2) := by
  cases a with
  | forward l => exact State.admission_unread s t c (f.request .posted l)
  | hold l => exact State.admission_unread s t c (f.request .held l)
  | track l i => exact State.track_unread s t c f l i
  | count => rfl
  | discard => rfl

theorem State.track_frame (s : State) (f : FlightEvent) (l : LevelId) (i : SlotId) :
    (s.track f l i).1 =
      { s with
        conditions := (s.track f l i).1.conditions
        ports := (s.track f l i).1.ports
        levelUnit := (s.track f l i).1.levelUnit
        notices := (s.track f l i).1.notices } := by
  unfold State.track
  by_cases h : (look s.conditions i).state = trackStateOf f.event.cond
  · simp only [h, if_true]; rfl
  · simp only [h, if_false, State.trackChange]
    have h' := State.admission_frame s (f.changeRequest l (look s.conditions i))
    generalize s.admission (f.changeRequest l (look s.conditions i)) = u at h'
    obtain ⟨u, o⟩ := u
    simp only at h'
    by_cases ho : o = .queued <;> simp only [ho, if_true, if_false] <;> rw [h'] <;> rfl

/-- An action changes the condition slots, the ports, the Level Unit and the notices, and nothing else. -/
theorem State.carryOut_frame (s : State) (f : FlightEvent) (a : EntryAction) :
    (s.carryOut f a).1 =
      { s with
        conditions := (s.carryOut f a).1.conditions
        ports := (s.carryOut f a).1.ports
        levelUnit := (s.carryOut f a).1.levelUnit
        notices := (s.carryOut f a).1.notices } := by
  have admitted : ∀ q : Record, (s.admission q).1 =
      { s with
        conditions := (s.admission q).1.conditions
        ports := (s.admission q).1.ports
        levelUnit := (s.admission q).1.levelUnit
        notices := (s.admission q).1.notices } := by
    intro q
    have h := State.admission_frame s q
    generalize (s.admission q).1 = u at h
    rw [h]
  cases a with
  | forward l => exact admitted _
  | hold l => exact admitted _
  | track l i => exact State.track_frame _ _ _ _
  | count => rfl
  | discard => rfl

/-! ### Retires -/

theorem State.serve_frame (s : State) (l : LevelId) :
    s.serve l = { s with service := { s.service with
      lowest := if s.service.mode = .rotating then l else s.service.lowest } } := by
  unfold State.serve
  cases h : s.service.mode <;> simp <;> rfl

theorem State.reportLapse_frame (s : State) (l : LevelId) (ticket : Byte) (o : RetireOutcome) :
    s.reportLapse l ticket o =
      { s with notices := if o = .lapsed then s.notices.lapseCause ticket l else s.notices } := by
  cases o <;> rfl

/-- A retire empties the level's place in service, raises one count of the level, and otherwise changes what the RELEASE request
and the report change. -/
theorem State.retire_frame (s : State) (l : LevelId) (r : ServiceRecord) (o : RetireOutcome) :
    s.retire l r o =
      { s with
        ports := (s.requestRelease r.record.origin (releaseOf r.record (releaseOutcomeOf o))).ports
        notices := if o = .lapsed
          then (s.requestRelease r.record.origin (releaseOf r.record (releaseOutcomeOf o))).notices.lapseCause r.ticket l
          else (s.requestRelease r.record.origin (releaseOf r.record (releaseOutcomeOf o))).notices
        levelUnit := { s.levelUnit with
          levels := put s.levelUnit.levels l { s.levelAt l with counts := (s.levelAt l).counts.countRetire o } }
        service := { s.service with
          inService := put s.service.inService l none
          lowest := if s.service.mode = .rotating then l else s.service.lowest } } := by
  have hp : ∀ (q : ReleaseRequest) (o' : Requester),
      ((((s.setInService l none).countRetire l o).requestRelease o' q).ports = (s.requestRelease o' q).ports) ∧
      ((((s.setInService l none).countRetire l o).requestRelease o' q).notices = (s.requestRelease o' q).notices) := by
    intro q o'
    unfold State.requestRelease
    cases portOf o' with
    | none => exact ⟨rfl, rfl⟩
    | some p =>
      simp only [State.countRetire, State.setLevel_ports, State.setInService_ports]
      by_cases h : (look s.ports p).enabled <;>
        by_cases h' : (look s.ports p).releases.length < Config.releaseCapacity <;>
        simp only [h, h', if_true, if_false, Bool.true_eq_false] <;> try exact ⟨rfl, rfl⟩
      unfold State.raisePort
      by_cases h : member (look s.ports p).conditions PortCondition.releaseLost.bit <;>
        by_cases h' : (look s.ports p).noticeEnabled <;> simp [h, h']
  unfold State.retire
  rw [State.serve_frame, State.reportLapse_frame, State.requestRelease_frame]
  simp only [hp]
  rfl

theorem State.retire_setManagement (s : State) (m : Management) (l : LevelId) (r : ServiceRecord) (o : RetireOutcome) :
    (s.setManagement m).retire l r o = (s.retire l r o).setManagement m := by
  rw [State.retire_frame, State.retire_frame (s := s), State.requestRelease_setManagement]
  rfl

/-! ### Replies and the swap -/

theorem State.produceReply_frame (s : State) (i : ReplySlotId) (r : Reply) :
    s.produceReply i r =
      { s with
        management := { s.management with
          slots := put s.management.slots i (some { tag := r.tag, op := r.op, progress := .replyReady }) }
        trunk := { s.trunk with replies := s.trunk.replies ++ [{ source := .reply i, reply := r }] } } := rfl

theorem State.landSwap_frame (s : State) :
    s.landSwap =
      { s with table := s.landSwap.table, management := s.landSwap.management, trunk := s.landSwap.trunk } := by
  unfold State.landSwap
  split
  · split <;> rfl
  · rfl
  · rfl

/-- A swap that is not pending does not land, and one that is pending waits for the Classifier. -/
theorem State.landSwap_of_busy {s : State} (h : s.table.operation.isSwapPending = false ∨ s.classifier.inFlight ≠ none) :
    s.landSwap = s := by
  unfold State.landSwap
  split
  · next r e =>
    rcases h with h | h
    · rw [e] at h; simp [BankOperation.isSwapPending] at h
    · have : s.classifier.inFlight.isNone = false := by cases hc : s.classifier.inFlight <;> simp_all
      simp [this]
  · rfl
  · rfl

/-! ### The grant of a notice -/

theorem State.grantNotice_frame (s : State) :
    s.grantNotice = { s with
      trunk := { s.trunk with tx := { s.trunk.tx with sending := s.grantNotice.trunk.tx.sending } }
      notices := s.grantNotice.notices } := by
  unfold State.grantNotice
  cases s.notices.returned with
  | some f => rfl
  | none => cases s.notices.nextKind <;> rfl

theorem State.grantRestarted_of_waiting {s : State} (free : s.trunkFree = true) (waits : s.notices.powerWaits = true) :
    s.grantRestarted = s.grantNotice := by
  simp [State.grantRestarted, free, waits]

theorem State.grantRestarted_of_none {s : State} (h : s.trunkFree = false ∨ s.notices.powerWaits = false) :
    s.grantRestarted = s := by
  rcases h with h | h <;> simp [State.grantRestarted, h]

/-- Either nothing is granted, or the trunk is free, a pin reset's RESTARTED waits, and a notice is granted. -/
theorem State.grantRestarted_cases (s : State) :
    s.grantRestarted = s ∨ s.trunkFree = true ∧ s.notices.powerWaits = true ∧ s.grantRestarted = s.grantNotice := by
  unfold State.grantRestarted
  split
  · rename_i h
    rw [Bool.and_eq_true] at h
    exact .inr ⟨h.1, h.2, rfl⟩
  · exact .inl rfl

theorem State.grantRestarted_frame (s : State) :
    s.grantRestarted = { s with
      trunk := { s.trunk with tx := { s.trunk.tx with sending := s.grantRestarted.trunk.tx.sending } }
      notices := s.grantRestarted.notices } := by
  rcases s.grantRestarted_cases with h | ⟨-, -, h⟩
  · rw [h]
  · rw [h, ← State.grantNotice_frame]

/-- A release gives every unit its initial state but for the grant of RESTARTED (R155, R156). -/
theorem State.released_frame (lines : LineJudgement) (waiting : List Instr) :
    State.released lines waiting = { State.initialised lines waiting with
      trunk := { TrunkPort.initial (judged lines.trunk) with
        tx := { sending := (State.released lines waiting).trunk.tx.sending, closing := .idle } }
      notices := (State.released lines waiting).notices } :=
  State.grantRestarted_frame _

/-- A latched RESTARTED is the kind granted next, and its frame carries the counter as it stands (R130, R134). -/
theorem State.grantNotice_restarted {s : State} {x : Restarted} (returned : s.notices.returned = none)
    (latched : s.notices.restarted = some x) :
    s.grantNotice = (s.setNotices { s.notices with restarted := none, nseq := s.notices.nseq + 1 }).send
      (.notice { kind := .restarted, nseq := s.notices.nseq, data := [restartCauseCode x.cause, x.tag] } false)
      (noticeFrame { kind := .restarted, nseq := s.notices.nseq, data := [restartCauseCode x.cause, x.tag] }) := by
  simp [State.grantNotice, returned, NoticeUnit.nextKind, noticeOrder, NoticeUnit.latched, latched, NoticeUnit.freeze,
    NoticeUnit.accumulated, NoticeUnit.afterFreeze, NoticeUnit.clearKind]

/-! ### Execution of the head request -/

theorem State.executeHead_picked {s : State} {q : QueuedRequest} {rest : List QueuedRequest} {picks : QueuedRequest → Bool}
    (hq : s.management.queue = q :: rest) (hp : picks q = true) (effect : QueuedRequest → State → State) :
    s.executeHead picks effect = effect q (s.setManagement { s.management with queue := rest }) := by
  simp [State.executeHead, hq, hp]

theorem State.executeHead_other {s : State} {picks : QueuedRequest → Bool}
    (h : ∀ q rest, s.management.queue = q :: rest → picks q = false) (effect : QueuedRequest → State → State) :
    s.executeHead picks effect = s := by
  unfold State.executeHead
  split
  · rfl
  · next q rest e => simp [h q rest e]

/-- What the execution of a head request does: nothing, or its effect on the state with the request gone from the queue. -/
theorem State.executeHead_cases (s : State) (picks : QueuedRequest → Bool) (effect : QueuedRequest → State → State) :
    s.executeHead picks effect = s ∨
      ∃ q rest, s.management.queue = q :: rest ∧ picks q = true ∧
        s.executeHead picks effect = effect q (s.setManagement { s.management with queue := rest }) := by
  cases h : s.management.queue with
  | nil => exact .inl (s.executeHead_other (fun _ _ e => by simp [h] at e) effect)
  | cons q rest =>
    cases hp : picks q
    · refine .inl (s.executeHead_other (fun _ _ e => ?_) effect)
      rw [h] at e
      injection e with e
      rw [← e, hp]
    · exact .inr ⟨q, rest, rfl, hp, s.executeHead_picked h hp effect⟩

theorem State.executeOp_ok {s : State} {q : QueuedRequest} {rest : List QueuedRequest} {op : Byte} {oplen : Nat}
    (hq : s.management.queue = q :: rest) (ho : q.op = op) (hl : q.operands.length = oplen)
    (effect : QueuedRequest → State → State) :
    s.executeOp op oplen effect = effect q (s.setManagement { s.management with queue := rest }) := by
  unfold State.executeOp
  rw [State.executeHead_picked hq (by simp [ho])]
  simp [hl]

theorem State.executeOp_malformed {s : State} {q : QueuedRequest} {rest : List QueuedRequest} {op : Byte} {oplen : Nat}
    (hq : s.management.queue = q :: rest) (ho : q.op = op) (hl : q.operands.length ≠ oplen)
    (effect : QueuedRequest → State → State) :
    s.executeOp op oplen effect = (s.setManagement { s.management with queue := rest }).answer q .malformed [] := by
  unfold State.executeOp
  rw [State.executeHead_picked hq (by simp [ho])]
  simp [hl]

theorem State.executeOp_other {s : State} {op : Byte} {oplen : Nat}
    (h : ∀ q rest, s.management.queue = q :: rest → q.op ≠ op) (effect : QueuedRequest → State → State) :
    s.executeOp op oplen effect = s :=
  s.executeHead_other (fun q rest e => by simpa using h q rest e) _

end Sys2Proof.Machine
end

