-- ==== Sys2Proof/Laws/Counts.lean ====
section
/-!
SUPPORT. How the counts of records (R85) move when one level or one place in service is replaced.
-/

namespace Sys2Proof.Machine

/-- A sum over distinct indices, with one term replaced. -/
theorem sum_replace {α : Type} [DecidableEq α] (f : α → Nat) (k : α) (x : Nat) :
    ∀ is : List α, is.Nodup → k ∈ is → (is.map fun i => if k = i then x else f i).sum + f k = (is.map f).sum + x
  | [], _, h => by simp at h
  | i :: is, hn, h => by
    rw [List.nodup_cons] at hn
    by_cases hk : k = i
    · subst hk
      have : (is.map fun i => if k = i then x else f i) = is.map f :=
        List.map_congr_left fun j hj => if_neg fun e : k = j => hn.1 (e ▸ hj)
      simp [this]
      omega
    · have := sum_replace f k x is hn.2 ((List.mem_cons.1 h).resolve_left hk)
      simp only [List.map_cons, List.sum_cons, if_neg hk]
      omega

theorem State.pendingRecords_setLevel (s : State) (l : LevelId) (x : Level) :
    (s.setLevel l x).pendingRecords + (s.levelAt l).queue.length = s.pendingRecords + x.queue.length := by
  have key : ∀ is : List LevelId, is.Nodup → l ∈ is →
      (is.map fun m => ((s.setLevel l x).levelAt m).queue.length).sum + (s.levelAt l).queue.length =
        (is.map fun m => (s.levelAt m).queue.length).sum + x.queue.length := by
    intro is hn hm
    rw [← sum_replace (fun m => (s.levelAt m).queue.length) l x.queue.length is hn hm]
    refine congrArg (· + _) (congrArg List.sum (List.map_congr_left fun m _ => ?_))
    rw [State.setLevel_levelAt]
    by_cases h : l = m <;> simp [h]
  exact key _ (List.nodup_finRange 16) (List.mem_finRange l)

theorem countP_eq_sum {α : Type} (p : α → Bool) : ∀ is : List α, is.countP p = (is.map fun i => (p i).toNat).sum
  | [] => rfl
  | i :: is => by
    rw [List.countP_cons, countP_eq_sum p is, List.map_cons, List.sum_cons]
    cases p i <;> simp [Nat.add_comm]

theorem State.recordsInService_setInService (s : State) (l : LevelId) (x : Option ServiceRecord) :
    (s.setInService l x).recordsInService + (s.inServiceAt l).isSome.toNat = s.recordsInService + x.isSome.toNat := by
  have key : ∀ is : List LevelId, is.Nodup → l ∈ is →
      (is.countP fun m => ((s.setInService l x).inServiceAt m).isSome) + (s.inServiceAt l).isSome.toNat =
        (is.countP fun m => (s.inServiceAt m).isSome) + x.isSome.toNat := by
    intro is hn hm
    rw [countP_eq_sum, countP_eq_sum,
      ← sum_replace (fun m => (s.inServiceAt m).isSome.toNat) l x.isSome.toNat is hn hm]
    refine congrArg (· + _) (congrArg List.sum (List.map_congr_left fun m _ => ?_))
    rw [State.setInService_inServiceAt]
    by_cases h : l = m <;> simp [h]
  exact key _ (List.nodup_finRange 16) (List.mem_finRange l)

/-- A queue is no longer than the records that are pending. -/
theorem State.queue_le_pendingRecords (s : State) (l : LevelId) : (s.levelAt l).queue.length ≤ s.pendingRecords :=
  List.single_le_sum (by simp) _ (List.mem_map.2 ⟨l, List.mem_finRange l, rfl⟩)

theorem State.freeRecords_le (s : State) : s.freeRecords ≤ 128 := by
  unfold State.freeRecords Config.poolSize
  omega

/-- A level with its high-water count raised has the longer of the two lengths in it. -/
theorem Level.raiseHighWater_eq (level : Level) :
    level.raiseHighWater = { level with counts := { level.counts with
      highWater := BitVec.ofNat 16 (max level.counts.highWater.toNat level.queue.length) } } := by
  unfold Level.raiseHighWater
  split
  · rw [max_eq_right (by omega)]
  · rw [max_eq_left (by omega)]
    simp

@[simp] theorem Level.raiseHighWater_queue (level : Level) : level.raiseHighWater.queue = level.queue := by
  unfold Level.raiseHighWater
  split <;> rfl

/-- A queue that gains a record makes one record more pending. -/
theorem State.enqueue_usedRecords (s : State) (q : Record) : (s.enqueue q).usedRecords = s.usedRecords + 1 := by
  have h := s.pendingRecords_setLevel q.level
    (Level.raiseHighWater { s.levelAt q.level with queue := (s.levelAt q.level).queue ++ [q] })
  rw [show s.setLevel q.level _ = s.enqueue q from rfl] at h
  simp only [Level.raiseHighWater_queue, List.length_append, List.length_singleton] at h
  have h1 : (s.enqueue q).recordsInService = s.recordsInService := rfl
  have h2 : (s.enqueue q).recordsInTransmission = s.recordsInTransmission := rfl
  unfold State.usedRecords
  rw [h1, h2]
  omega

/-- The low-water mark is the smaller of itself and the free records. -/
theorem State.lowerMark_eq (s : State) :
    s.lowerMark = s.setLevelUnit { s.levelUnit with
      lowWater := BitVec.ofNat 8 (min s.levelUnit.lowWater.toNat s.freeRecords) } := by
  unfold State.lowerMark
  split
  · rw [min_eq_right (by omega)]
    rfl
  · rw [min_eq_left (by omega)]
    simp
    rfl

end Sys2Proof.Machine
end

