-- ==== Sys2Proof/Laws/Exec.lean ====
section
/-!
SUPPORT. Every command but those of the pins and the lines is an effect that RESET_N held low suspends (R155).
-/

namespace Sys2Proof.Machine

/-- The command is an event of RESET_N or of a line's signal, which the part takes while RESET_N is held low. -/
def unsuspended : Instr → Bool
  | .resetNLow | .resetNRelease _ | .lineComesLive _ | .lineGoesDead _ => true
  | _ => false

/-- A suspended command is one effect, whatever the state. -/
theorem exec_suspended {c : Instr} (h : unsuspended c = false) :
    ∃ effect : State → State, ∀ s, exec c s = whenRunning s effect := by
  cases c
  case resetNLow => cases h
  case resetNRelease => cases h
  case lineComesLive => cases h
  case lineGoesDead => cases h
  all_goals
    simp only [exec, execEvent, execBadFrame, execBadTrunkFrame, execComplete, execCompleteTop, execPause, execResume,
      execPauseTimerExpires, execRequest, execClassificationStart, execClassificationCompletes, execSwapTakesEffect,
      execCopyStep, execCopyCompletes, execReleaseTransmissionStart, execReleaseCompletes, execReplyGrant,
      execNoticeGrant, execResendGrant, execDispatchGrant, execReplyCompletes, execNoticeCompletes,
      execFirstTransmissionEnds, execResendEnds, execServiceTimerExpires, execIdent, execReadEntry, execWriteEntry,
      execClearEntry, execWriteDefault, execCopyBank, execSwapBanks, execReadLevel, execWriteLevel, execSetOrder,
      execMaskLevels, execFlushLevel, execReadPort, execWritePort, execReadTrunk, execReadCondition,
      execClearCondition, execInject, execReadPool, execNoticeEnable, execResetTraffic, execResetFull,
      execUnsupportedOp]
    exact ⟨_, fun _ => rfl⟩

end Sys2Proof.Machine
end

