-- ==== Sys2Proof/Laws/Frames.lean ====
section
/-!
SUPPORT. Which units of the part a command may change: `touched` names them, and `exec_touches` says that every other unit, and the
queue of waiting commands, is as before.
-/

namespace Sys2Proof.Machine

/-- The fields of State but for the queue of waiting commands. -/
inductive Part where
  | resetHeld
  | ports
  | classifier
  | table
  | conditions
  | levelUnit
  | service
  | trunk
  | notices
  | management
deriving DecidableEq, Repr

/-- `t` is `s` but for the parts named. -/
structure SameOutside (parts : List Part) (s t : State) : Prop where
  resetHeld : Part.resetHeld ∉ parts → t.resetHeld = s.resetHeld
  ports : Part.ports ∉ parts → t.ports = s.ports
  classifier : Part.classifier ∉ parts → t.classifier = s.classifier
  table : Part.table ∉ parts → t.table = s.table
  conditions : Part.conditions ∉ parts → t.conditions = s.conditions
  levelUnit : Part.levelUnit ∉ parts → t.levelUnit = s.levelUnit
  service : Part.service ∉ parts → t.service = s.service
  trunk : Part.trunk ∉ parts → t.trunk = s.trunk
  notices : Part.notices ∉ parts → t.notices = s.notices
  management : Part.management ∉ parts → t.management = s.management
  pending : t.pending = s.pending

variable {parts more : List Part} {s t u : State}

theorem SameOutside.refl (parts : List Part) (s : State) : SameOutside parts s s :=
  ⟨fun _ => rfl, fun _ => rfl, fun _ => rfl, fun _ => rfl, fun _ => rfl, fun _ => rfl, fun _ => rfl, fun _ => rfl,
    fun _ => rfl, fun _ => rfl, rfl⟩

theorem SameOutside.trans (h : SameOutside parts s t) (g : SameOutside parts t u) : SameOutside parts s u :=
  ⟨fun n => (g.resetHeld n).trans (h.resetHeld n), fun n => (g.ports n).trans (h.ports n),
    fun n => (g.classifier n).trans (h.classifier n), fun n => (g.table n).trans (h.table n),
    fun n => (g.conditions n).trans (h.conditions n), fun n => (g.levelUnit n).trans (h.levelUnit n),
    fun n => (g.service n).trans (h.service n), fun n => (g.trunk n).trans (h.trunk n),
    fun n => (g.notices n).trans (h.notices n), fun n => (g.management n).trans (h.management n),
    g.pending.trans h.pending⟩

/-- More parts may be named. -/
theorem SameOutside.mono (h : SameOutside parts s t) (sub : parts ⊆ more) : SameOutside more s t :=
  ⟨fun n => h.resetHeld fun m => n (sub m), fun n => h.ports fun m => n (sub m), fun n => h.classifier fun m => n (sub m),
    fun n => h.table fun m => n (sub m), fun n => h.conditions fun m => n (sub m), fun n => h.levelUnit fun m => n (sub m),
    fun n => h.service fun m => n (sub m), fun n => h.trunk fun m => n (sub m), fun n => h.notices fun m => n (sub m),
    fun n => h.management fun m => n (sub m), h.pending⟩

/-! ### The shared operations -/

theorem raisePort_touches (s : State) (p : PortId) (c : PortCondition) :
    SameOutside [.ports, .notices] s (s.raisePort p c) := by
  rw [State.raisePort_frame]
  constructor <;> first | rfl | (intro h; first | rfl | exact absurd (by decide) h)

theorem raiseTrunk_touches (s : State) (c : TrunkCondition) : SameOutside [.trunk, .notices] s (s.raiseTrunk c) := by
  rw [State.raiseTrunk_frame]
  constructor <;> first | rfl | (intro h; first | rfl | exact absurd (by decide) h)

theorem grantNotice_touches (s : State) : SameOutside [.trunk, .notices] s s.grantNotice := by
  rw [State.grantNotice_frame]
  constructor <;> first | rfl | (intro h; first | rfl | exact absurd (by decide) h)

theorem grantRestarted_touches (s : State) : SameOutside [.trunk, .notices] s s.grantRestarted := by
  rw [State.grantRestarted_frame]
  constructor <;> first | rfl | (intro h; first | rfl | exact absurd (by decide) h)

theorem requestRelease_touches (s : State) (o : Requester) (q : ReleaseRequest) :
    SameOutside [.ports, .notices] s (s.requestRelease o q) := by
  rw [State.requestRelease_frame]
  constructor <;> first | rfl | (intro h; first | rfl | exact absurd (by decide) h)

theorem releaseIfHeld_touches (s : State) (r : Record) (o : ReleaseOutcome) :
    SameOutside [.ports, .notices] s (s.releaseIfHeld r o) := by
  rw [State.releaseIfHeld_frame]
  constructor <;> first | rfl | (intro h; first | rfl | exact absurd (by decide) h)

theorem abortReturn_touches (s : State) (r : Record) :
    SameOutside [.ports, .levelUnit, .notices] s (s.abortReturn r) := by
  rw [State.abortReturn_frame]
  constructor <;> first | rfl | (intro h; first | rfl | exact absurd (by decide) h)

theorem retire_touches (s : State) (l : LevelId) (r : ServiceRecord) (o : RetireOutcome) :
    SameOutside [.ports, .levelUnit, .service, .notices] s (s.retire l r o) := by
  rw [State.retire_frame]
  constructor <;> first | rfl | (intro h; first | rfl | exact absurd (by decide) h)

theorem carryOut_touches (s : State) (f : FlightEvent) (a : EntryAction) :
    SameOutside [.conditions, .ports, .levelUnit, .notices] s (s.carryOut f a).1 := by
  rw [State.carryOut_frame]
  constructor <;> first | rfl | (intro h; first | rfl | exact absurd (by decide) h)

theorem produceReply_touches (s : State) (i : ReplySlotId) (r : Reply) :
    SameOutside [.management, .trunk] s (s.produceReply i r) := by
  constructor <;> first | rfl | (intro h; first | rfl | exact absurd (by decide) h)

theorem answer_touches (s : State) (q : QueuedRequest) (status : Status) (data : List Byte) :
    SameOutside [.management, .trunk] s (s.answer q status data) := produceReply_touches _ _ _

theorem setLevelUnit_touches (s : State) (u : LevelUnit) : SameOutside [.levelUnit] s (s.setLevelUnit u) := by
  constructor <;> first | rfl | (intro h; first | rfl | exact absurd (by decide) h)

theorem landSwap_touches (s : State) : SameOutside [.table, .management, .trunk] s s.landSwap := by
  rw [State.landSwap_frame]
  constructor <;> first | rfl | (intro h; first | rfl | exact absurd (by decide) h)

theorem serve_touches (s : State) (l : LevelId) : SameOutside [.service] s (s.serve l) := by
  rw [State.serve_frame]
  constructor <;> first | rfl | (intro h; first | rfl | exact absurd (by decide) h)

theorem foldl_touches {α : Type} {f : State → α → State} (h : ∀ s a, SameOutside parts s (f s a)) :
    ∀ (xs : List α) (s : State), SameOutside parts s (xs.foldl f s)
  | [], s => SameOutside.refl parts s
  | x :: xs, s => (h s x).trans (foldl_touches h xs (f s x))

theorem receiveEvent_touches (s : State) (p : PortId) (e : Event) :
    SameOutside [.ports, .notices] s (s.receiveEvent p e) := by
  unfold State.receiveEvent
  split
  · constructor <;> first | rfl | (intro h; first | rfl | exact absurd (by decide) h)
  · exact raisePort_touches _ _ _

theorem portVerdict_touches (s : State) (p : PortId) (v : Verdict) :
    SameOutside [.ports, .notices] s (s.portVerdict p v) := by
  unfold State.portVerdict
  split
  · unfold State.actOnVerdict
    split
    iterate 4 exact raisePort_touches _ _ _
    split
    · exact receiveEvent_touches _ _ _
    · exact SameOutside.refl _ _
  · exact SameOutside.refl _ _

theorem fieldArrival_touches (s : State) (p : PortId) (symbols : List Symbol) :
    SameOutside [.ports, .notices] s (s.fieldArrival p symbols) := by
  refine SameOutside.trans ?_ (foldl_touches (fun s v => portVerdict_touches s p v) _ _)
  constructor <;> first | rfl | (intro h; first | rfl | exact absurd (by decide) h)

/-- The parts that a frame from the supervisor may change. -/
abbrev trunkParts : List Part := [.trunk, .notices, .ports, .levelUnit, .service, .management]

theorem retireAt_touches (s : State) (l : Option LevelId) (o : RetireOutcome) :
    SameOutside trunkParts s (s.retireAt l o) := by
  have stray : SameOutside trunkParts s s.raiseStray := by
    rw [State.raiseStray_frame]
    constructor <;> first | rfl | (intro h; first | rfl | exact absurd (by decide) h)
  unfold State.retireAt
  cases l with
  | none => exact stray
  | some l =>
    simp only
    split
    · exact (retire_touches _ _ _ _).mono (by decide)
    · exact stray

theorem takeRequest_touches (s : State) (tag op : Byte) (operands : List Byte) :
    SameOutside trunkParts s (s.takeRequest tag op operands) := by
  unfold State.takeRequest
  split
  · constructor <;> first | rfl | (intro h; first | rfl | exact absurd (by decide) h)
  · unfold State.refuse
    split
    · exact (raiseTrunk_touches _ _).mono (by decide)
    · constructor <;> first | rfl | (intro h; first | rfl | exact absurd (by decide) h)

theorem trunkVerdict_touches (s : State) (v : Verdict) : SameOutside trunkParts s (s.trunkVerdict v) := by
  have raise : ∀ c, SameOutside trunkParts s (s.raiseTrunk c) := fun c => (raiseTrunk_touches _ _).mono (by decide)
  have outcome : ∀ (b : Byte) (take : RetireOutcome → State), (∀ o, SameOutside trunkParts s (take o)) →
      SameOutside trunkParts s (s.withOutcome b take) := by
    intro b take h
    unfold State.withOutcome
    split
    · exact h _
    · exact SameOutside.refl _ _
  cases v with
  | valid bytes =>
    simp only [State.trunkVerdict]
    unfold State.routeFrame
    split_ifs
    · exact outcome _ _ fun o => retireAt_touches _ _ _
    · exact outcome _ _ fun o => retireAt_touches _ _ _
    · constructor <;> first | rfl | (intro h; first | rfl | exact absurd (by decide) h)
    · constructor <;> first | rfl | (intro h; first | rfl | exact absurd (by decide) h)
    · exact takeRequest_touches _ _ _ _
    · exact SameOutside.refl _ _
  | framing => exact raise _
  | check => exact raise _
  | unknownKind => exact raise _
  | format => exact raise _

theorem trunkArrival_touches (s : State) (symbols : List Symbol) :
    SameOutside trunkParts s (s.trunkArrival symbols) := by
  refine SameOutside.trans ?_ (foldl_touches trunkVerdict_touches _ _)
  constructor <;> first | rfl | (intro h; first | rfl | exact absurd (by decide) h)

/-- The parts that a line that goes dead may change. -/
abbrev deadParts : List Part := [.ports, .trunk, .notices, .levelUnit, .service]

theorem ownAbort_touches (s : State) (g : GrantedFrame) : SameOutside deadParts s (s.ownAbort g) := by
  have returned : ∀ (t : State) (r : Record), SameOutside deadParts s t → SameOutside deadParts s (t.abortReturn r) :=
    fun t r h => h.trans ((abortReturn_touches t r).mono (by decide))
  unfold State.ownAbort
  split
  · exact SameOutside.refl _ _
  · split
    · exact SameOutside.refl _ _
    · constructor <;> first | rfl | (intro h; first | rfl | exact absurd (by decide) h)
  · split
    · constructor <;> first | rfl | (intro h; first | rfl | exact absurd (by decide) h)
    · exact SameOutside.refl _ _
  · split
    · refine returned _ _ ?_
      constructor <;> first | rfl | (intro h; first | rfl | exact absurd (by decide) h)
    · exact SameOutside.refl _ _
  · split
    · refine returned _ _ ?_
      constructor <;> first | rfl | (intro h; first | rfl | exact absurd (by decide) h)
    · exact SameOutside.refl _ _

theorem abortTrunk_touches (s : State) : SameOutside deadParts s s.abortTrunk := by
  unfold State.abortTrunk
  split
  · exact SameOutside.refl _ _
  · refine SameOutside.trans ?_ (ownAbort_touches _ _)
    constructor <;> first | rfl | (intro h; first | rfl | exact absurd (by decide) h)

theorem fieldDead_touches (s : State) (p : PortId) : SameOutside [.ports, .notices] s (s.fieldDead p) := by
  have cut : ∀ (t : State) (v : Option Verdict), SameOutside [.ports, .notices] t (t.portVerdict? p v) := by
    intro t v
    cases v
    · exact SameOutside.refl _ _
    · exact portVerdict_touches _ _ _
  unfold State.fieldDead
  split_ifs
  · exact SameOutside.refl _ _
  · constructor <;> first | rfl | (intro h; first | rfl | exact absurd (by decide) h)
  · refine SameOutside.trans (SameOutside.trans ?_ (cut _ _)) (raisePort_touches _ _ _)
    constructor <;> first | rfl | (intro h; first | rfl | exact absurd (by decide) h)
  · refine SameOutside.trans ?_ (cut _ _)
    constructor <;> first | rfl | (intro h; first | rfl | exact absurd (by decide) h)

theorem trunkDead_touches (s : State) : SameOutside deadParts s s.trunkDead := by
  have cut : ∀ (t : State), SameOutside deadParts t (t.trunkVerdict? s.trunk.rx.goDead.2) := by
    intro t
    cases s.trunk.rx
    · exact SameOutside.refl _ _
    · exact SameOutside.refl _ _
    · exact (raiseTrunk_touches _ _).mono (by decide)
  unfold State.trunkDead
  split_ifs
  · exact SameOutside.refl _ _
  · constructor <;> first | rfl | (intro h; first | rfl | exact absurd (by decide) h)
  · refine SameOutside.trans (SameOutside.trans (SameOutside.trans ?_ (cut _)) ((raiseTrunk_touches _ _).mono (by decide)))
      (abortTrunk_touches _)
    constructor <;> first | rfl | (intro h; first | rfl | exact absurd (by decide) h)

theorem completeFlight_touches (s : State) (f : FlightEvent) :
    SameOutside [.table, .conditions, .ports, .levelUnit, .notices, .classifier, .management, .trunk] s
      (s.completeFlight f) := by
  have count : SameOutside [.table] s (s.countHit f) := by
    constructor <;> first | rfl | (intro h; first | rfl | exact absurd (by decide) h)
  have reply : ∀ (t : State) (d : Decision) (o : ActionOutcome),
      SameOutside [.management, .trunk] t (t.injectReply f d o) := by
    intro t d o
    unfold State.injectReply
    split
    · exact SameOutside.refl _ _
    · exact produceReply_touches _ _ _
  have idle : ∀ t : State, SameOutside [.classifier] t (t.setClassifier { t.classifier with inFlight := none }) := by
    intro t
    constructor <;> first | rfl | (intro h; first | rfl | exact absurd (by decide) h)
  unfold State.completeFlight
  exact ((count.mono (by decide)).trans ((carryOut_touches _ _ _).mono (by decide))).trans
    (((reply _ _ _).mono (by decide)).trans (((idle _).mono (by decide)).trans ((landSwap_touches _).mono (by decide))))

theorem startFor_touches (s : State) (r : Requester) : SameOutside [.ports, .classifier] s (s.startFor r) := by
  unfold State.startFor
  split
  · split
    · exact SameOutside.refl _ _
    · constructor <;> first | rfl | (intro h; first | rfl | exact absurd (by decide) h)
  · split
    · exact SameOutside.refl _ _
    · constructor <;> first | rfl | (intro h; first | rfl | exact absurd (by decide) h)

theorem send_touches (s : State) (g : GrantedFrame) (bytes : List Byte) : SameOutside [.trunk] s (s.send g bytes) := by
  constructor <;> first | rfl | (intro h; first | rfl | exact absurd (by decide) h)

theorem flush_touches (s : State) (l : LevelId) :
    SameOutside [.ports, .levelUnit, .service, .notices] s (s.flush l) := by
  have service : SameOutside [.ports, .levelUnit, .service, .notices] s (s.flushService l) := by
    unfold State.flushService
    split
    · exact retire_touches _ _ _ _
    · exact SameOutside.refl _ _
  unfold State.flush State.releaseFlushed
  refine SameOutside.trans (SameOutside.trans service ?_)
    (foldl_touches (fun s r => (releaseIfHeld_touches s r .flushed).mono (by decide)) _ _)
  constructor <;> first | rfl | (intro h; first | rfl | exact absurd (by decide) h)

/-- The parts that a TRAFFIC reset may change. -/
abbrev trafficParts : List Part :=
  [.ports, .classifier, .table, .conditions, .levelUnit, .service, .trunk, .management]

theorem trafficReset_touches (s : State) : SameOutside trafficParts s s.trafficReset := by
  have conflict : ∀ (t : State) (o : Option PendingReply), SameOutside trafficParts t (t.answerConflict o) := by
    intro t o
    cases o
    · exact SameOutside.refl _ _
    · exact (produceReply_touches _ _ _).mono (by decide)
  have effects : ∀ t : State, SameOutside trafficParts t t.trafficEffects := by
    intro t
    constructor <;> first | rfl | (intro h; first | rfl | exact absurd (by decide) h)
  unfold State.trafficReset
  exact (((conflict _ _).trans (conflict _ _)).trans (effects _)).trans ((landSwap_touches _).mono (by decide))

/-! ### The execution of a head request -/

theorem executeHead_touches {picks : QueuedRequest → Bool} {effect : QueuedRequest → State → State}
    (hm : Part.management ∈ parts) (h : ∀ q t, SameOutside parts t (effect q t)) (s : State) :
    SameOutside parts s (s.executeHead picks effect) := by
  rcases s.executeHead_cases picks effect with e | ⟨q, rest, -, -, e⟩
  · rw [e]
    exact SameOutside.refl _ _
  · rw [e]
    refine SameOutside.trans ?_ (h _ _)
    constructor <;> first | rfl | (intro n; first | rfl | exact absurd hm n)

theorem executeOp_touches {op : Byte} {oplen : Nat} {effect : QueuedRequest → State → State}
    (hm : [.management, .trunk] ⊆ parts) (h : ∀ q t, SameOutside parts t (effect q t)) (s : State) :
    SameOutside parts s (s.executeOp op oplen effect) := by
  refine executeHead_touches (hm (by decide)) (fun q t => ?_) s
  split
  · exact h q t
  · exact (answer_touches _ _ _ _).mono hm

theorem whenRunning_touches {effect : State → State} (h : ∀ s, SameOutside parts s (effect s))
    (e : whenRunning s effect = .next t) : SameOutside parts s t := by
  rcases whenRunning_cases e with ⟨-, rfl⟩ | ⟨-, rfl⟩
  · exact SameOutside.refl _ _
  · exact h s

/-! ### The commands -/

theorem execResetNLow_touches {s t : State} (e : execResetNLow s = .next t) :
    SameOutside [.resetHeld, .ports, .trunk] s t := by
  cases e
  constructor <;> first | rfl | (intro h; first | rfl | exact absurd (by decide) h)

theorem execResetNRelease_touches {s t : State} (lines : LineJudgement) (e : execResetNRelease lines s = .next t) :
    SameOutside [.resetHeld, .ports, .classifier, .table, .conditions, .levelUnit, .service, .trunk, .notices, .management] s t := by
  unfold execResetNRelease at e
  cases e
  split
  · refine SameOutside.trans ?_ ((grantRestarted_touches _).mono (by decide))
    constructor <;> first | rfl | (intro h; first | rfl | exact absurd (by decide) h)
  · exact SameOutside.refl _ _

theorem execLineComesLive_touches {s t : State} (link : Link) (e : execLineComesLive link s = .next t) :
    SameOutside [.ports, .trunk, .notices] s t := by
  unfold execLineComesLive at e
  cases e
  split
  · unfold State.fieldLive
    simp only []
    split_ifs
    · exact SameOutside.refl _ _
    · refine SameOutside.trans ?_ ((raisePort_touches _ _ _).mono (by decide))
      constructor <;> first | rfl | (intro h; first | rfl | exact absurd (by decide) h)
    · constructor <;> first | rfl | (intro h; first | rfl | exact absurd (by decide) h)
  · unfold State.trunkLive
    simp only []
    split_ifs
    · exact SameOutside.refl _ _
    · constructor <;> first | rfl | (intro h; first | rfl | exact absurd (by decide) h)
    · refine SameOutside.trans (SameOutside.trans ?_ ((grantRestarted_touches _).mono (by decide)))
        ((raiseTrunk_touches _ _).mono (by decide))
      constructor <;> first | rfl | (intro h; first | rfl | exact absurd (by decide) h)

theorem execLineGoesDead_touches {s t : State} (link : Link) (e : execLineGoesDead link s = .next t) :
    SameOutside deadParts s t := by
  unfold execLineGoesDead at e
  cases e
  split
  · exact (fieldDead_touches _ _).mono (by decide)
  · exact trunkDead_touches _

theorem execEvent_touches {s t : State} (port : PortId) (node : Byte) (code : Half) (cond : BitVec 2) (spare : BitVec 2) (seq : BitVec 4) (payload : List Byte)
    (e : execEvent port node code cond spare seq payload s = .next t) :
    SameOutside [.ports, .notices] s t := by
  unfold execEvent at e
  refine whenRunning_touches (fun s => ?_) e
  exact fieldArrival_touches _ _ _

theorem execBadFrame_touches {s t : State} (port : PortId) (symbols : List Symbol)
    (e : execBadFrame port symbols s = .next t) :
    SameOutside [.ports, .notices] s t := by
  unfold execBadFrame at e
  refine whenRunning_touches (fun s => ?_) e
  exact fieldArrival_touches _ _ _

theorem execBadTrunkFrame_touches {s t : State} (symbols : List Symbol) (e : execBadTrunkFrame symbols s = .next t) :
    SameOutside trunkParts s t := by
  unfold execBadTrunkFrame at e
  refine whenRunning_touches (fun s => ?_) e
  exact trunkArrival_touches _ _

theorem execComplete_touches {s t : State} (ticket : Byte) (outcome : Byte)
    (e : execComplete ticket outcome s = .next t) :
    SameOutside trunkParts s t := by
  unfold execComplete at e
  refine whenRunning_touches (fun s => ?_) e
  exact trunkArrival_touches _ _

theorem execCompleteTop_touches {s t : State} (outcome : Byte) (e : execCompleteTop outcome s = .next t) :
    SameOutside trunkParts s t := by
  unfold execCompleteTop at e
  refine whenRunning_touches (fun s => ?_) e
  exact trunkArrival_touches _ _

theorem execPause_touches {s t : State} (duration : Byte) (e : execPause duration s = .next t) :
    SameOutside trunkParts s t := by
  unfold execPause at e
  refine whenRunning_touches (fun s => ?_) e
  exact trunkArrival_touches _ _

theorem execResume_touches {s t : State} (e : execResume s = .next t) :
    SameOutside trunkParts s t := by
  unfold execResume at e
  refine whenRunning_touches (fun s => ?_) e
  exact trunkArrival_touches _ _

theorem execPauseTimerExpires_touches {s t : State} (e : execPauseTimerExpires s = .next t) :
    SameOutside [.trunk] s t := by
  unfold execPauseTimerExpires at e
  refine whenRunning_touches (fun s => ?_) e
  split
  · constructor <;> first | rfl | (intro h; first | rfl | exact absurd (by decide) h)
  · exact SameOutside.refl _ _

theorem execRequest_touches {s t : State} (tag : Byte) (op : Byte) (operands : List Byte)
    (e : execRequest tag op operands s = .next t) :
    SameOutside trunkParts s t := by
  unfold execRequest at e
  refine whenRunning_touches (fun s => ?_) e
  exact trunkArrival_touches _ _

theorem execClassificationStart_touches {s t : State} (e : execClassificationStart s = .next t) :
    SameOutside [.ports, .classifier] s t := by
  unfold execClassificationStart at e
  refine whenRunning_touches (fun s => ?_) e
  split
  · split
    · exact startFor_touches _ _
    · exact SameOutside.refl _ _
  · exact SameOutside.refl _ _

theorem execClassificationCompletes_touches {s t : State} (e : execClassificationCompletes s = .next t) :
    SameOutside [.table, .conditions, .ports, .levelUnit, .notices, .classifier, .management, .trunk] s t := by
  unfold execClassificationCompletes at e
  refine whenRunning_touches (fun s => ?_) e
  split
  · exact completeFlight_touches _ _
  · exact SameOutside.refl _ _

theorem execSwapTakesEffect_touches {s t : State} (e : execSwapTakesEffect s = .next t) :
    SameOutside [.table, .management, .trunk] s t := by
  unfold execSwapTakesEffect at e
  refine whenRunning_touches (fun s => ?_) e
  exact landSwap_touches _

theorem execCopyStep_touches {s t : State} (e : execCopyStep s = .next t) :
    SameOutside [.table] s t := by
  unfold execCopyStep at e
  refine whenRunning_touches (fun s => ?_) e
  split
  · constructor <;> first | rfl | (intro h; first | rfl | exact absurd (by decide) h)
  · exact SameOutside.refl _ _
  · exact SameOutside.refl _ _

theorem execCopyCompletes_touches {s t : State} (e : execCopyCompletes s = .next t) :
    SameOutside [.table, .management, .trunk] s t := by
  unfold execCopyCompletes at e
  refine whenRunning_touches (fun s => ?_) e
  split
  · constructor <;> first | rfl | (intro h; first | rfl | exact absurd (by decide) h)
  iterate 4 exact SameOutside.refl _ _

theorem execReleaseTransmissionStart_touches {s t : State} (port : PortId)
    (e : execReleaseTransmissionStart port s = .next t) :
    SameOutside [.ports] s t := by
  unfold execReleaseTransmissionStart at e
  refine whenRunning_touches (fun s => ?_) e
  split
  · exact SameOutside.refl _ _
  · split
    · constructor <;> first | rfl | (intro h; first | rfl | exact absurd (by decide) h)
    · exact SameOutside.refl _ _

theorem execReleaseCompletes_touches {s t : State} (port : PortId) (e : execReleaseCompletes port s = .next t) :
    SameOutside [.ports] s t := by
  unfold execReleaseCompletes at e
  refine whenRunning_touches (fun s => ?_) e
  split
  · constructor <;> first | rfl | (intro h; first | rfl | exact absurd (by decide) h)
  · exact SameOutside.refl _ _

theorem execReplyGrant_touches {s t : State} (e : execReplyGrant s = .next t) :
    SameOutside [.trunk] s t := by
  unfold execReplyGrant at e
  refine whenRunning_touches (fun s => ?_) e
  split
  · split
    · exact send_touches _ _ _
    · exact SameOutside.refl _ _
  · exact SameOutside.refl _ _

theorem execNoticeGrant_touches {s t : State} (e : execNoticeGrant s = .next t) :
    SameOutside [.trunk, .notices] s t := by
  unfold execNoticeGrant at e
  refine whenRunning_touches (fun s => ?_) e
  split
  · exact grantNotice_touches _
  · exact SameOutside.refl _ _

theorem execResendGrant_touches {s t : State} (e : execResendGrant s = .next t) :
    SameOutside [.service, .trunk] s t := by
  unfold execResendGrant at e
  refine whenRunning_touches (fun s => ?_) e
  split
  · split
    · unfold State.resendFrom
      split
      · constructor <;> first | rfl | (intro h; first | rfl | exact absurd (by decide) h)
      · exact SameOutside.refl _ _
    · exact SameOutside.refl _ _
  · exact SameOutside.refl _ _

theorem execDispatchGrant_touches {s t : State} (e : execDispatchGrant s = .next t) :
    SameOutside [.levelUnit, .service, .trunk] s t := by
  unfold execDispatchGrant at e
  refine whenRunning_touches (fun s => ?_) e
  split
  · split
    · unfold State.dispatchFrom
      split
      · exact SameOutside.refl _ _
      · split
        · constructor <;> first | rfl | (intro h; first | rfl | exact absurd (by decide) h)
        · constructor <;> first | rfl | (intro h; first | rfl | exact absurd (by decide) h)
    · exact SameOutside.refl _ _
  · exact SameOutside.refl _ _

theorem execReplyCompletes_touches {s t : State} (e : execReplyCompletes s = .next t) :
    SameOutside [.management, .trunk] s t := by
  unfold execReplyCompletes at e
  refine whenRunning_touches (fun s => ?_) e
  split
  · unfold State.replySent
    split
    · constructor <;> first | rfl | (intro h; first | rfl | exact absurd (by decide) h)
    · constructor <;> first | rfl | (intro h; first | rfl | exact absurd (by decide) h)
  iterate 4 exact SameOutside.refl _ _

theorem execNoticeCompletes_touches {s t : State} (e : execNoticeCompletes s = .next t) :
    SameOutside [.trunk] s t := by
  unfold execNoticeCompletes at e
  refine whenRunning_touches (fun s => ?_) e
  split
  · constructor <;> first | rfl | (intro h; first | rfl | exact absurd (by decide) h)
  iterate 4 exact SameOutside.refl _ _

theorem execFirstTransmissionEnds_touches {s t : State} (e : execFirstTransmissionEnds s = .next t) :
    SameOutside [.levelUnit, .service, .trunk] s t := by
  unfold execFirstTransmissionEnds at e
  refine whenRunning_touches (fun s => ?_) e
  split
  · unfold State.postedSent
    split
    · constructor <;> first | rfl | (intro h; first | rfl | exact absurd (by decide) h)
    · refine SameOutside.trans ?_ ((serve_touches _ _).mono (by decide))
      constructor <;> first | rfl | (intro h; first | rfl | exact absurd (by decide) h)
  · unfold State.awaitAfter
    split
    · constructor <;> first | rfl | (intro h; first | rfl | exact absurd (by decide) h)
    · constructor <;> first | rfl | (intro h; first | rfl | exact absurd (by decide) h)
  iterate 4 exact SameOutside.refl _ _

theorem execResendEnds_touches {s t : State} (e : execResendEnds s = .next t) :
    SameOutside [.service, .trunk] s t := by
  unfold execResendEnds at e
  refine whenRunning_touches (fun s => ?_) e
  split
  · unfold State.awaitAfter
    split
    · constructor <;> first | rfl | (intro h; first | rfl | exact absurd (by decide) h)
    · constructor <;> first | rfl | (intro h; first | rfl | exact absurd (by decide) h)
  iterate 4 exact SameOutside.refl _ _

theorem execServiceTimerExpires_touches {s t : State} (level : LevelId)
    (e : execServiceTimerExpires level s = .next t) :
    SameOutside [.ports, .levelUnit, .service, .notices] s t := by
  unfold execServiceTimerExpires at e
  refine whenRunning_touches (fun s => ?_) e
  split
  · split
    · unfold State.expire
      split
      · constructor <;> first | rfl | (intro h; first | rfl | exact absurd (by decide) h)
      · exact retire_touches _ _ _ _
    · exact SameOutside.refl _ _
  · exact SameOutside.refl _ _

theorem execIdent_touches {s t : State} (e : execIdent s = .next t) :
    SameOutside [.management, .trunk] s t := by
  unfold execIdent at e
  refine whenRunning_touches (fun s => ?_) e
  refine executeOp_touches (by decide) (fun q t => ?_) s
  exact (answer_touches _ _ _ _).mono (by decide)

theorem execReadEntry_touches {s t : State} (e : execReadEntry s = .next t) :
    SameOutside [.table, .management, .trunk] s t := by
  unfold execReadEntry at e
  refine whenRunning_touches (fun s => ?_) e
  refine executeOp_touches (by decide) (fun q t => ?_) s
  split
  · constructor <;> first | rfl | (intro h; first | rfl | exact absurd (by decide) h)
  · exact (answer_touches _ _ _ _).mono (by decide)

theorem execWriteEntry_touches {s t : State} (e : execWriteEntry s = .next t) :
    SameOutside [.table, .management, .trunk] s t := by
  unfold execWriteEntry at e
  refine whenRunning_touches (fun s => ?_) e
  refine executeOp_touches (by decide) (fun q t => ?_) s
  split
  · exact (answer_touches _ _ _ _).mono (by decide)
  · unfold State.writeStandby
    split
    · constructor <;> first | rfl | (intro h; first | rfl | exact absurd (by decide) h)
    · exact (answer_touches _ _ _ _).mono (by decide)

theorem execClearEntry_touches {s t : State} (e : execClearEntry s = .next t) :
    SameOutside [.table, .management, .trunk] s t := by
  unfold execClearEntry at e
  refine whenRunning_touches (fun s => ?_) e
  refine executeOp_touches (by decide) (fun q t => ?_) s
  split
  · exact (answer_touches _ _ _ _).mono (by decide)
  · unfold State.writeStandby
    split
    · constructor <;> first | rfl | (intro h; first | rfl | exact absurd (by decide) h)
    · exact (answer_touches _ _ _ _).mono (by decide)

theorem execWriteDefault_touches {s t : State} (e : execWriteDefault s = .next t) :
    SameOutside [.table, .management, .trunk] s t := by
  unfold execWriteDefault at e
  refine whenRunning_touches (fun s => ?_) e
  refine executeOp_touches (by decide) (fun q t => ?_) s
  split
  · exact (answer_touches _ _ _ _).mono (by decide)
  · unfold State.writeStandby
    split
    · constructor <;> first | rfl | (intro h; first | rfl | exact absurd (by decide) h)
    · exact (answer_touches _ _ _ _).mono (by decide)

theorem execCopyBank_touches {s t : State} (e : execCopyBank s = .next t) :
    SameOutside [.table, .management, .trunk] s t := by
  unfold execCopyBank at e
  refine whenRunning_touches (fun s => ?_) e
  refine executeOp_touches (by decide) (fun q t => ?_) s
  split
  · constructor <;> first | rfl | (intro h; first | rfl | exact absurd (by decide) h)
  · exact (answer_touches _ _ _ _).mono (by decide)

theorem execSwapBanks_touches {s t : State} (e : execSwapBanks s = .next t) :
    SameOutside [.table, .management, .trunk] s t := by
  unfold execSwapBanks at e
  refine whenRunning_touches (fun s => ?_) e
  refine executeOp_touches (by decide) (fun q t => ?_) s
  split
  · refine SameOutside.trans ?_ (landSwap_touches _)
    constructor <;> first | rfl | (intro h; first | rfl | exact absurd (by decide) h)
  · exact (answer_touches _ _ _ _).mono (by decide)

theorem execReadLevel_touches {s t : State} (e : execReadLevel s = .next t) :
    SameOutside [.levelUnit, .management, .trunk] s t := by
  unfold execReadLevel at e
  refine whenRunning_touches (fun s => ?_) e
  refine executeOp_touches (by decide) (fun q t => ?_) s
  split
  · unfold State.readLevelOf
    split
    · constructor <;> first | rfl | (intro h; first | rfl | exact absurd (by decide) h)
    · constructor <;> first | rfl | (intro h; first | rfl | exact absurd (by decide) h)
  · exact (answer_touches _ _ _ _).mono (by decide)

theorem execWriteLevel_touches {s t : State} (e : execWriteLevel s = .next t) :
    SameOutside [.levelUnit, .management, .trunk] s t := by
  unfold execWriteLevel at e
  refine whenRunning_touches (fun s => ?_) e
  refine executeOp_touches (by decide) (fun q t => ?_) s
  split
  · unfold State.writeLevelOf
    split
    · constructor <;> first | rfl | (intro h; first | rfl | exact absurd (by decide) h)
    · constructor <;> first | rfl | (intro h; first | rfl | exact absurd (by decide) h)
  · exact (answer_touches _ _ _ _).mono (by decide)

theorem execSetOrder_touches {s t : State} (e : execSetOrder s = .next t) :
    SameOutside [.service, .management, .trunk] s t := by
  unfold execSetOrder at e
  refine whenRunning_touches (fun s => ?_) e
  refine executeOp_touches (by decide) (fun q t => ?_) s
  split
  · constructor <;> first | rfl | (intro h; first | rfl | exact absurd (by decide) h)
  · exact (answer_touches _ _ _ _).mono (by decide)

theorem execMaskLevels_touches {s t : State} (e : execMaskLevels s = .next t) :
    SameOutside [.levelUnit, .management, .trunk] s t := by
  unfold execMaskLevels at e
  refine whenRunning_touches (fun s => ?_) e
  refine executeOp_touches (by decide) (fun q t => ?_) s
  exact ((setLevelUnit_touches _ _).mono (by decide)).trans ((answer_touches _ _ _ _).mono (by decide))

theorem execFlushLevel_touches {s t : State} (e : execFlushLevel s = .next t) :
    SameOutside [.ports, .levelUnit, .service, .notices, .management, .trunk] s t := by
  unfold execFlushLevel at e
  refine whenRunning_touches (fun s => ?_) e
  refine executeOp_touches (by decide) (fun q t => ?_) s
  split
  · exact ((flush_touches _ _).mono (by decide)).trans ((answer_touches _ _ _ _).mono (by decide))
  · exact (answer_touches _ _ _ _).mono (by decide)

theorem execReadPort_touches {s t : State} (e : execReadPort s = .next t) :
    SameOutside [.ports, .management, .trunk] s t := by
  unfold execReadPort at e
  refine whenRunning_touches (fun s => ?_) e
  refine executeOp_touches (by decide) (fun q t => ?_) s
  split
  · constructor <;> first | rfl | (intro h; first | rfl | exact absurd (by decide) h)
  · exact (answer_touches _ _ _ _).mono (by decide)

theorem execWritePort_touches {s t : State} (e : execWritePort s = .next t) :
    SameOutside [.ports, .management, .trunk] s t := by
  unfold execWritePort at e
  refine whenRunning_touches (fun s => ?_) e
  refine executeOp_touches (by decide) (fun q t => ?_) s
  split
  · constructor <;> first | rfl | (intro h; first | rfl | exact absurd (by decide) h)
  · exact (answer_touches _ _ _ _).mono (by decide)

theorem execReadTrunk_touches {s t : State} (e : execReadTrunk s = .next t) :
    SameOutside [.management, .trunk] s t := by
  unfold execReadTrunk at e
  refine whenRunning_touches (fun s => ?_) e
  refine executeOp_touches (by decide) (fun q t => ?_) s
  constructor <;> first | rfl | (intro h; first | rfl | exact absurd (by decide) h)

theorem execReadCondition_touches {s t : State} (e : execReadCondition s = .next t) :
    SameOutside [.management, .trunk] s t := by
  unfold execReadCondition at e
  refine whenRunning_touches (fun s => ?_) e
  refine executeOp_touches (by decide) (fun q t => ?_) s
  split
  · exact (answer_touches _ _ _ _).mono (by decide)
  · exact (answer_touches _ _ _ _).mono (by decide)

theorem execClearCondition_touches {s t : State} (e : execClearCondition s = .next t) :
    SameOutside [.conditions, .management, .trunk] s t := by
  unfold execClearCondition at e
  refine whenRunning_touches (fun s => ?_) e
  refine executeOp_touches (by decide) (fun q t => ?_) s
  split
  · constructor <;> first | rfl | (intro h; first | rfl | exact absurd (by decide) h)
  · split
    · constructor <;> first | rfl | (intro h; first | rfl | exact absurd (by decide) h)
    · exact (answer_touches _ _ _ _).mono (by decide)

theorem execInject_touches {s t : State} (e : execInject s = .next t) :
    SameOutside [.classifier, .management, .trunk] s t := by
  unfold execInject at e
  refine whenRunning_touches (fun s => ?_) e
  refine executeHead_touches (by decide) (fun q t => ?_) s
  split
  · split
    · unfold State.injectEvent
      split
      · exact (answer_touches _ _ _ _).mono (by decide)
      · constructor <;> first | rfl | (intro h; first | rfl | exact absurd (by decide) h)
    · exact (answer_touches _ _ _ _).mono (by decide)
  · exact (answer_touches _ _ _ _).mono (by decide)

theorem execReadPool_touches {s t : State} (e : execReadPool s = .next t) :
    SameOutside [.levelUnit, .management, .trunk] s t := by
  unfold execReadPool at e
  refine whenRunning_touches (fun s => ?_) e
  refine executeOp_touches (by decide) (fun q t => ?_) s
  constructor <;> first | rfl | (intro h; first | rfl | exact absurd (by decide) h)

theorem execNoticeEnable_touches {s t : State} (e : execNoticeEnable s = .next t) :
    SameOutside [.notices, .management, .trunk] s t := by
  unfold execNoticeEnable at e
  refine whenRunning_touches (fun s => ?_) e
  refine executeOp_touches (by decide) (fun q t => ?_) s
  split
  · exact (answer_touches _ _ _ _).mono (by decide)
  · constructor <;> first | rfl | (intro h; first | rfl | exact absurd (by decide) h)

theorem execResetTraffic_touches {s t : State} (e : execResetTraffic s = .next t) :
    SameOutside trafficParts s t := by
  unfold execResetTraffic at e
  refine whenRunning_touches (fun s => ?_) e
  refine executeHead_touches (by decide) (fun q t => ?_) s
  split
  · exact (trafficReset_touches _).trans ((answer_touches _ _ _ _).mono (by decide))
  · unfold State.answerBadReset
    split
    · exact (answer_touches _ _ _ _).mono (by decide)
    · exact (answer_touches _ _ _ _).mono (by decide)

theorem execResetFull_touches {s t : State} (e : execResetFull s = .next t) :
    SameOutside [.ports, .classifier, .table, .conditions, .levelUnit, .service, .trunk, .notices, .management] s t := by
  unfold execResetFull at e
  refine whenRunning_touches (fun s => ?_) e
  refine executeHead_touches (by decide) (fun q t => ?_) s
  split
  · constructor <;> first | rfl | (intro h; first | rfl | exact absurd (by decide) h)
  · unfold State.answerBadReset
    split
    · exact (answer_touches _ _ _ _).mono (by decide)
    · exact (answer_touches _ _ _ _).mono (by decide)

theorem execUnsupportedOp_touches {s t : State} (e : execUnsupportedOp s = .next t) :
    SameOutside [.management, .trunk] s t := by
  unfold execUnsupportedOp at e
  refine whenRunning_touches (fun s => ?_) e
  refine executeHead_touches (by decide) (fun q t => ?_) s
  exact (answer_touches _ _ _ _).mono (by decide)

/-- The parts that a command may change. -/
def touched : Instr → List Part
  | .resetNLow => [.resetHeld, .ports, .trunk]
  | .resetNRelease _ =>
    [.resetHeld, .ports, .classifier, .table, .conditions, .levelUnit, .service, .trunk, .notices, .management]
  | .lineComesLive _ => [.ports, .trunk, .notices]
  | .lineGoesDead _ => deadParts
  | .event _ _ _ _ _ _ _ | .badFrame _ _ => [.ports, .notices]
  | .badTrunkFrame _ | .complete _ _ | .completeTop _ | .pause _ | .resume | .request _ _ _ => trunkParts
  | .pauseTimerExpires | .replyGrant | .noticeCompletes => [.trunk]
  | .classificationStart => [.ports, .classifier]
  | .classificationCompletes =>
    [.table, .conditions, .ports, .levelUnit, .notices, .classifier, .management, .trunk]
  | .copyStep => [.table]
  | .releaseTransmissionStart _ | .releaseCompletes _ => [.ports]
  | .noticeGrant => [.trunk, .notices]
  | .resendGrant | .resendEnds => [.service, .trunk]
  | .dispatchGrant | .firstTransmissionEnds => [.levelUnit, .service, .trunk]
  | .serviceTimerExpires _ => [.ports, .levelUnit, .service, .notices]
  | .ident | .readCondition | .unsupportedOp | .replyCompletes => [.management, .trunk]
  | .swapTakesEffect | .copyCompletes | .readEntry | .writeEntry | .clearEntry | .writeDefault | .copyBank | .swapBanks =>
    [.table, .management, .trunk]
  | .readLevel | .writeLevel | .maskLevels | .readPool => [.levelUnit, .management, .trunk]
  | .setOrder => [.service, .management, .trunk]
  | .flushLevel => [.ports, .levelUnit, .service, .notices, .management, .trunk]
  | .readPort | .writePort => [.ports, .management, .trunk]
  | .readTrunk => [.management, .trunk]
  | .clearCondition => [.conditions, .management, .trunk]
  | .inject => [.classifier, .management, .trunk]
  | .noticeEnable => [.notices, .management, .trunk]
  | .resetTraffic => trafficParts
  | .resetFull => [.ports, .classifier, .table, .conditions, .levelUnit, .service, .trunk, .notices, .management]

/-- A command changes no part but those it touches, and never the queue. -/
theorem exec_touches (c : Instr) {s t : State} (e : exec c s = .next t) : SameOutside (touched c) s t := by
  cases c with
  | resetNLow => exact execResetNLow_touches e
  | resetNRelease lines => exact execResetNRelease_touches lines e
  | lineComesLive link => exact execLineComesLive_touches link e
  | lineGoesDead link => exact execLineGoesDead_touches link e
  | event port node code cond spare seq payload => exact execEvent_touches port node code cond spare seq payload e
  | badFrame port symbols => exact execBadFrame_touches port symbols e
  | badTrunkFrame symbols => exact execBadTrunkFrame_touches symbols e
  | complete ticket outcome => exact execComplete_touches ticket outcome e
  | completeTop outcome => exact execCompleteTop_touches outcome e
  | pause duration => exact execPause_touches duration e
  | resume => exact execResume_touches e
  | pauseTimerExpires => exact execPauseTimerExpires_touches e
  | request tag op operands => exact execRequest_touches tag op operands e
  | classificationStart => exact execClassificationStart_touches e
  | classificationCompletes => exact execClassificationCompletes_touches e
  | swapTakesEffect => exact execSwapTakesEffect_touches e
  | copyStep => exact execCopyStep_touches e
  | copyCompletes => exact execCopyCompletes_touches e
  | releaseTransmissionStart port => exact execReleaseTransmissionStart_touches port e
  | releaseCompletes port => exact execReleaseCompletes_touches port e
  | replyGrant => exact execReplyGrant_touches e
  | noticeGrant => exact execNoticeGrant_touches e
  | resendGrant => exact execResendGrant_touches e
  | dispatchGrant => exact execDispatchGrant_touches e
  | replyCompletes => exact execReplyCompletes_touches e
  | noticeCompletes => exact execNoticeCompletes_touches e
  | firstTransmissionEnds => exact execFirstTransmissionEnds_touches e
  | resendEnds => exact execResendEnds_touches e
  | serviceTimerExpires level => exact execServiceTimerExpires_touches level e
  | ident => exact execIdent_touches e
  | readEntry => exact execReadEntry_touches e
  | writeEntry => exact execWriteEntry_touches e
  | clearEntry => exact execClearEntry_touches e
  | writeDefault => exact execWriteDefault_touches e
  | copyBank => exact execCopyBank_touches e
  | swapBanks => exact execSwapBanks_touches e
  | readLevel => exact execReadLevel_touches e
  | writeLevel => exact execWriteLevel_touches e
  | setOrder => exact execSetOrder_touches e
  | maskLevels => exact execMaskLevels_touches e
  | flushLevel => exact execFlushLevel_touches e
  | readPort => exact execReadPort_touches e
  | writePort => exact execWritePort_touches e
  | readTrunk => exact execReadTrunk_touches e
  | readCondition => exact execReadCondition_touches e
  | clearCondition => exact execClearCondition_touches e
  | inject => exact execInject_touches e
  | readPool => exact execReadPool_touches e
  | noticeEnable => exact execNoticeEnable_touches e
  | resetTraffic => exact execResetTraffic_touches e
  | resetFull => exact execResetFull_touches e
  | unsupportedOp => exact execUnsupportedOp_touches e

end Sys2Proof.Machine
end

