-- ==== Sys2Proof/Laws/Link.lean ====
section
/-!
SUPPORT. The check register: it is linear, it loses nothing, and it is 0 after a frame's own check; what a receiver has gathered
after some bytes, and the one verdict it hands over on a whole frame; the bytes of a well-formed frame pass every test.
-/

namespace Sys2Proof.Machine

/-! ### The check register (R5, R6) -/

theorem crcStep_xor (a b : Half) : crcStep (a ^^^ b) = crcStep a ^^^ crcStep b := by
  unfold crcStep
  rw [BitVec.msb_xor, BitVec.shiftLeft_xor_distrib]
  cases a.msb <;> cases b.msb <;> simp
  · rw [BitVec.xor_assoc]
  · rw [BitVec.xor_assoc, BitVec.xor_assoc, BitVec.xor_comm (b <<< 1)]
  · rw [BitVec.xor_assoc, ← BitVec.xor_assoc 0x2F15#16, BitVec.xor_comm 0x2F15#16, BitVec.xor_assoc, BitVec.xor_self,
      BitVec.xor_zero]

theorem crcStep_eq_zero {x : Half} (h : crcStep x = 0) : x = 0 := by
  unfold crcStep at h
  cases hm : x.msb
  · rw [hm] at h
    simp only [Bool.false_eq_true, if_false] at h
    refine BitVec.eq_of_getLsbD_eq fun i hi => ?_
    by_cases h15 : i = 15
    · subst h15
      simpa [BitVec.msb_eq_getLsbD_last] using hm
    · have := congrArg (fun v => v.getLsbD (i + 1)) h
      simp only [BitVec.getLsbD_shiftLeft, show i + 1 < 16 by omega] at this
      simpa using this
  · rw [hm] at h
    simp only [if_true] at h
    have := congrArg (fun v => v.getLsbD 0) h
    simp at this

/-- The eight steps for a byte. -/
theorem crcByte_eq (r : Half) (b : Byte) :
    crcByte r b = crcStep (crcStep (crcStep (crcStep (crcStep (crcStep (crcStep (crcStep (r ^^^ (b ++ (0 : Byte)))))))))) :=
  rfl

theorem crcByte_zero (r : Half) : crcByte r 0 = crcStep (crcStep (crcStep (crcStep (crcStep (crcStep (crcStep (crcStep r))))))) := by
  have h : r ^^^ ((0 : Byte) ++ (0 : Byte)) = r := BitVec.xor_zero
  rw [crcByte_eq, h]

theorem crcByte_xor (a b : Half) : crcByte (a ^^^ b) 0 = crcByte a 0 ^^^ crcByte b 0 := by
  simp only [crcByte_zero, crcStep_xor]

theorem crcByte_shift (r : Half) (b : Byte) : crcByte r b = crcByte (r ^^^ (b ++ (0 : Byte))) 0 := by
  rw [crcByte_zero, crcByte_eq]

theorem crcByte_eq_zero {x : Half} : crcByte x 0 = 0 ↔ x = 0 := by
  rw [crcByte_zero]
  constructor
  · intro h
    exact crcStep_eq_zero (crcStep_eq_zero (crcStep_eq_zero (crcStep_eq_zero (crcStep_eq_zero (crcStep_eq_zero
      (crcStep_eq_zero (crcStep_eq_zero h)))))))
  · rintro rfl
    rfl

/-- Eight steps take the low byte into the high one. -/
theorem crcByte_low : ∀ lo : Byte, crcByte ((0 : Byte) ++ lo) 0 = lo ++ (0 : Byte) := by decide

theorem xor_parts (hi lo : Byte) : (hi ++ (0 : Byte) : Half) ^^^ ((0 : Byte) ++ lo) = joinBytes hi lo := by
  refine BitVec.eq_of_getLsbD_eq fun i _ => ?_
  rw [BitVec.getLsbD_xor, getLsbD_joinBytes]
  have h1 : (hi ++ (0 : Byte)).getLsbD i = if i < 8 then false else hi.getLsbD (i - 8) := getLsbD_joinBytes hi 0 i |>.trans (by simp)
  have h2 : ((0 : Byte) ++ lo).getLsbD i = if i < 8 then lo.getLsbD i else false := getLsbD_joinBytes 0 lo i |>.trans (by simp)
  by_cases h : i < 8 <;> simp only [h, if_true, if_false] at h1 h2 ⊢ <;> rw [h1, h2] <;> simp

/-- The register is 0 after the two bytes of its own value, and after no other two (R6). -/
theorem crcRun_two {r : Half} {hi lo : Byte} : crcRun r [hi, lo] = 0 ↔ r = joinBytes hi lo := by
  have step : crcRun r [hi, lo] = crcByte (crcByte r hi ^^^ (lo ++ (0 : Byte))) 0 := crcByte_shift _ _
  rw [step, ← crcByte_low lo, crcByte_shift r hi, ← crcByte_xor, BitVec.xor_assoc, xor_parts, crcByte_eq_zero,
    crcByte_eq_zero]
  exact BitVec.xor_eq_zero_iff

theorem crcRun_append (r : Half) (xs ys : List Byte) : crcRun r (xs ++ ys) = crcRun (crcRun r xs) ys :=
  List.foldl_append

/-- The two ways to judge a check agree (R6). -/
theorem crcRun_frame {body : List Byte} {hi lo : Byte} :
    crcRun 0xFFFF (body ++ [hi, lo]) = 0 ↔ frameCheck body = joinBytes hi lo := by
  rw [crcRun_append]
  exact crcRun_two

/-- A closed frame's check is right. -/
theorem crcRun_closeFrame (body : List Byte) : crcRun 0xFFFF (closeFrame body) = 0 :=
  crcRun_frame.mpr (joinBytes_parts _).symm

@[simp] theorem closeFrame_length (body : List Byte) : (closeFrame body).length = body.length + 2 := by
  simp [closeFrame, numberBytes]

theorem closeFrame_inj {a b : List Byte} (h : closeFrame a = closeFrame b) : a = b := by
  have hl : a.length = b.length := by simpa using congrArg List.length h
  exact (List.append_inj h hl).1

/-! ### What a receiver has gathered (R3) -/

theorem RxFrame.push_foldl (k : LinkKind) (bytes : List Byte) : ∀ f : RxFrame, f.stored.length ≤ storeLimit k →
    bytes.foldl (RxFrame.push k) f =
      { stored := f.stored ++ bytes.take (storeLimit k - f.stored.length)
        count := f.count + bytes.length
        crc := crcRun f.crc bytes } := by
  induction bytes with
  | nil => intro f _; simp [crcRun]
  | cons b bytes ih =>
    intro f h
    rw [List.foldl_cons]
    by_cases hl : f.stored.length < storeLimit k
    · rw [ih _ (by simp [RxFrame.push, hl])]
      obtain ⟨n, hn⟩ : ∃ n, storeLimit k - f.stored.length = n + 1 := ⟨_, (Nat.succ_pred_eq_of_pos (by omega)).symm⟩
      simp only [RxFrame.push, hl, if_true, List.length_append, hn, List.take_succ_cons,
        List.length_cons, RxFrame.mk.injEq]
      refine ⟨?_, by omega, rfl⟩
      rw [List.length_nil, show storeLimit k - (f.stored.length + (0 + 1)) = n by omega, List.append_assoc,
        List.singleton_append]
    · rw [ih _ (by simpa [RxFrame.push, hl] using h)]
      simp only [RxFrame.push, hl, if_false, List.length_cons, RxFrame.mk.injEq,
        show storeLimit k - f.stored.length = 0 by omega, List.take_zero]
      exact ⟨trivial, by omega, rfl⟩

/-- What a receiver has gathered when these bytes have followed a start marker. -/
theorem gathered_eq (k : LinkKind) (bytes : List Byte) :
    bytes.foldl (RxFrame.push k) RxFrame.empty =
      { stored := bytes.take (storeLimit k), count := bytes.length, crc := frameCheck bytes } := by
  rw [RxFrame.push_foldl k bytes _ (by simp [RxFrame.empty])]
  simp [RxFrame.empty, frameCheck]

/-! ### A whole frame (R3, R4) -/

theorem Receiver.run_append (k : LinkKind) (xs ys : List Symbol) : ∀ r : Receiver,
    Receiver.run k r (xs ++ ys) =
      ((Receiver.run k (Receiver.run k r xs).1 ys).1, (Receiver.run k r xs).2 ++ (Receiver.run k (Receiver.run k r xs).1 ys).2) := by
  induction xs with
  | nil => intro r; simp [Receiver.run]
  | cons x xs ih => intro r; simp [Receiver.run, ih]

theorem Receiver.run_data (k : LinkKind) (bytes : List Byte) : ∀ f : RxFrame,
    Receiver.run k (.inFrame f) (bytes.map .data) = (.inFrame (bytes.foldl (RxFrame.push k) f), []) := by
  induction bytes with
  | nil => intro f; rfl
  | cons b bytes ih => intro f; simp [Receiver.run, Receiver.take, ih]

/-- A receiver in HUNT that takes a start marker, bytes and one more symbol. -/
theorem Receiver.run_hunt (k : LinkKind) (bytes : List Byte) (x : Symbol) :
    Receiver.run k .hunt (.start :: (bytes.map .data ++ [x])) =
      (((Receiver.inFrame (bytes.foldl (RxFrame.push k) RxFrame.empty)).take k x).1,
       ((Receiver.inFrame (bytes.foldl (RxFrame.push k) RxFrame.empty)).take k x).2.toList) := by
  rw [Receiver.run]
  simp [Receiver.take, Receiver.run_append, Receiver.run_data, Receiver.run]

/-- A receiver in HUNT hands over one verdict on a whole frame and is in HUNT again. -/
theorem Receiver.run_frame (k : LinkKind) (bytes : List Byte) :
    Receiver.run k .hunt (lineSymbols bytes) =
      (.hunt, [frameVerdict k (bytes.foldl (RxFrame.push k) RxFrame.empty)]) := by
  rw [lineSymbols, Receiver.run_hunt]
  rfl

/-- A receiver in a frame hands FRAMING over first and then takes the new frame as from HUNT. -/
theorem Receiver.run_inFrame (k : LinkKind) (f : RxFrame) (bytes : List Byte) :
    Receiver.run k (.inFrame f) (lineSymbols bytes) =
      (.hunt, [.framing, frameVerdict k (bytes.foldl (RxFrame.push k) RxFrame.empty)]) := by
  have h := Receiver.run_frame k bytes
  rw [lineSymbols, Receiver.run] at h ⊢
  simp only [Receiver.take] at h ⊢
  simp only [Option.toList_none, List.nil_append, Prod.mk.injEq] at h
  simp [h]

theorem Receiver.run_dead (k : LinkKind) (symbols : List Symbol) : Receiver.run k .dead symbols = (.dead, []) := by
  induction symbols with
  | nil => rfl
  | cons x xs ih => simp [Receiver.run, Receiver.take, ih]

/-! ### Verdicts on closed frames (R4, R7 to R9) -/

/-- The verdict on a frame whose check is right. -/
theorem frameVerdict_closeFrame (k : LinkKind) (kind : Byte) (body : List Byte) :
    frameVerdict k ((closeFrame (kind :: body)).foldl (RxFrame.push k) RxFrame.empty) =
      if kind ∉ acceptedKinds k then .unknownKind
      else if lengthOk kind ((closeFrame (kind :: body)).take (storeLimit k)) (body.length + 3) = false then .format
      else if valuesOk kind ((closeFrame (kind :: body)).take (storeLimit k)) = false then .format
      else .valid ((closeFrame (kind :: body)).take (storeLimit k)) := by
  have hkind : ((closeFrame (kind :: body)).take (storeLimit k)).getD 0 0 = kind := by
    cases k <;> simp [storeLimit, closeFrame]
  rw [gathered_eq, frameVerdict]
  simp only [closeFrame_length, List.length_cons, hkind]
  have hcheck : frameCheck (closeFrame (kind :: body)) = 0 := crcRun_closeFrame _
  rw [if_neg (by omega), if_neg (not_not_intro hcheck)]

/-! ### The bytes of a well-formed frame earn VALID -/

theorem condBits_byte (cond spare : BitVec 2) (seq : BitVec 4) : condBits (cond ++ spare ++ seq) = cond := by
  revert cond spare seq
  decide

theorem seqBits_byte (cond spare : BitVec 2) (seq : BitVec 4) : seqBits (cond ++ spare ++ seq) = seq := by
  revert cond spare seq
  decide

theorem condOfBits_condCode (c : Cond) : condOfBits (condCode c) = some c := by
  cases c <;> rfl

theorem condOfBits_isSome : ∀ b : BitVec 2, (condOfBits b).isSome = decide (b ≠ 3) := by decide

theorem completionOutcome_isSome (b : Byte) : (completionOutcome b).isSome = decide (b = 1 ∨ b = 2) := by
  unfold completionOutcome
  by_cases h1 : b = 1
  · simp [h1]
  · by_cases h2 : b = 2 <;> simp_all

theorem byteOf_toNat {n : Nat} (h : n < 256) : (byteOf n).toNat = n := by
  simp [byteOf]
  omega

theorem frameVerdict_event (node : Byte) (code : Half) {cond : BitVec 2} (spare : BitVec 2) (seq : BitVec 4)
    {payload : List Byte} (hc : cond ≠ 3) (hp : payload.length ≤ 8) :
    frameVerdict .field ((closeFrame (eventBody node code cond spare seq payload)).foldl (RxFrame.push .field)
      RxFrame.empty) = .valid (closeFrame (eventBody node code cond spare seq payload)) := by
  have hl := byteOf_toNat (show payload.length < 256 by omega)
  have ht : (closeFrame (eventBody node code cond spare seq payload)).take 16 =
      closeFrame (eventBody node code cond spare seq payload) :=
    List.take_of_length_le (by simp [eventBody, numberBytes]; omega)
  have h := frameVerdict_closeFrame .field kindEvent
    ([node] ++ numberBytes code ++ [cond ++ spare ++ seq, byteOf payload.length] ++ payload)
  refine h.trans ?_
  have e : kindEvent :: ([node] ++ numberBytes code ++ [cond ++ spare ++ seq, byteOf payload.length] ++ payload) =
    eventBody node code cond spare seq payload := rfl
  rw [e, show storeLimit .field = 16 from rfl, ht, if_neg (by decide), if_neg, if_neg]
  · simp [valuesOk, closeFrame, eventBody, numberBytes, condBits_byte, condOfBits_isSome]
    simpa using hc
  · simp [lengthOk, fixedPart, lengthField, lengthMaximum, closeFrame, eventBody, numberBytes, hl, hp]
    omega

theorem frameVerdict_request (tag op : Byte) {operands : List Byte} (h : operands.length ≤ 24) :
    frameVerdict .trunk ((closeFrame (requestBody tag op operands)).foldl (RxFrame.push .trunk) RxFrame.empty) =
      .valid (closeFrame (requestBody tag op operands)) := by
  have hl := byteOf_toNat (show operands.length < 256 by omega)
  have ht : (closeFrame (requestBody tag op operands)).take 30 = closeFrame (requestBody tag op operands) :=
    List.take_of_length_le (by simp [requestBody]; omega)
  refine (frameVerdict_closeFrame .trunk kindRequest ([tag, op, byteOf operands.length] ++ operands)).trans ?_
  have e : kindRequest :: ([tag, op, byteOf operands.length] ++ operands) = requestBody tag op operands := rfl
  rw [e, show storeLimit .trunk = 30 from rfl, ht, if_neg (by decide), if_neg, if_neg]
  · simp [valuesOk, kindRequest, kindEvent, kindComplete, kindCompleteTop]
  · simp [lengthOk, fixedPart, lengthField, lengthMaximum, closeFrame, requestBody, numberBytes, hl, h, kindRequest, kindEvent]
    omega

theorem frameVerdict_complete {ticket outcome : Byte} (ht : ticket ≠ 0) (ho : outcome = 1 ∨ outcome = 2) :
    frameVerdict .trunk ((closeFrame (completeBody ticket outcome)).foldl (RxFrame.push .trunk) RxFrame.empty) =
      .valid (closeFrame (completeBody ticket outcome)) := by
  refine (frameVerdict_closeFrame .trunk kindComplete [ticket, outcome]).trans ?_
  rw [if_neg (by decide), if_neg, if_neg]
  · rfl
  · simp [valuesOk, storeLimit, closeFrame, kindComplete, kindEvent, completionOutcome_isSome]
    simp at ht ho
    exact ⟨ht, ho.resolve_left⟩
  · simp [lengthOk, fixedPart, lengthField, lengthMaximum, kindComplete, kindRequest, kindEvent]

theorem frameVerdict_completeTop {outcome : Byte} (ho : outcome = 1 ∨ outcome = 2) :
    frameVerdict .trunk ((closeFrame (completeTopBody outcome)).foldl (RxFrame.push .trunk) RxFrame.empty) =
      .valid (closeFrame (completeTopBody outcome)) := by
  refine (frameVerdict_closeFrame .trunk kindCompleteTop [outcome]).trans ?_
  rw [if_neg (by decide), if_neg, if_neg]
  · rfl
  · simp [valuesOk, storeLimit, closeFrame, kindCompleteTop, kindComplete, kindEvent, completionOutcome_isSome]
    simp at ho
    exact ho.resolve_left
  · simp [lengthOk, fixedPart, lengthField, lengthMaximum, kindCompleteTop, kindComplete, kindRequest, kindEvent, kindResume]

theorem frameVerdict_pause (duration : Byte) :
    frameVerdict .trunk ((closeFrame (pauseBody duration)).foldl (RxFrame.push .trunk) RxFrame.empty) =
      .valid (closeFrame (pauseBody duration)) :=
  (frameVerdict_closeFrame .trunk kindPause [duration]).trans rfl

theorem frameVerdict_resume :
    frameVerdict .trunk ((closeFrame resumeBody).foldl (RxFrame.push .trunk) RxFrame.empty) = .valid (closeFrame resumeBody) :=
  (frameVerdict_closeFrame .trunk kindResume []).trans rfl

/-- An EVENT frame gives its fields back. -/
theorem parseEvent_eventBody (node : Byte) (code : Half) (c : Cond) (spare : BitVec 2) (seq : BitVec 4)
    {payload : List Byte} (hp : payload.length ≤ 8) :
    parseEvent (closeFrame (eventBody node code (condCode c) spare seq payload)) =
      some { node := node, code := code, cond := c, seq := seq, payload := payload } := by
  have hl := byteOf_toNat (show payload.length < 256 by omega)
  simp [parseEvent, closeFrame, eventBody, numberBytes, condBits_byte, seqBits_byte, condOfBits_condCode, hl]

end Sys2Proof.Machine
end

