-- ==== Sys2Proof/WellFormed.lean ====
section
/-!
DEFINITION. Which terms of Instr are commands of their row. A frame's command is well formed when its fields are those of a
VALID frame of that kind (R8, R9); the symbols of a bad frame begin one with a start marker and end it (R3). The machine
takes every term all the same: the receiver judges the bytes (notes/assumptions/5.md).
-/

namespace Sys2Proof

/-- `cond` 3 is illegal and `plen` is at most 8 (R8, R9). -/
def eventFieldsOk (cond : BitVec 2) (payload : List Byte) : Bool :=
  cond != 3 && decide (payload.length ≤ 8)

/-- `outcome` is DONE 1 or REJECT 2 (R9). -/
def outcomeOk (outcome : Byte) : Bool :=
  outcome == 1 || outcome == 2

/-- The symbols that end or cut a frame (R3). -/
def Symbol.closes : Symbol → Bool
  | .start | .endMarker | .abort | .violation => true
  | .idle | .data _ => false

/-- The run begins a frame and its last symbol, after the first, ends or cuts it (R3). -/
def symbolsOk (symbols : List Symbol) : Bool :=
  symbols.head? == some .start && (symbols.tail.getLast?.map Symbol.closes).getD false

/-- A term that is a command of its row. -/
def Instr.wellFormed : Instr → Bool
  | .event _ _ _ cond _ _ payload => eventFieldsOk cond payload
  | .badFrame _ symbols => symbolsOk symbols
  | .badTrunkFrame symbols => symbolsOk symbols
  | .complete ticket outcome => ticket != 0 && outcomeOk outcome
  | .completeTop outcome => outcomeOk outcome
  | .request _ _ operands => decide (operands.length ≤ 24)
  | .resetNLow | .resetNRelease _ | .lineComesLive _ | .lineGoesDead _ | .pause _ | .resume | .pauseTimerExpires
  | .classificationStart | .classificationCompletes | .swapTakesEffect | .copyStep | .copyCompletes
  | .releaseTransmissionStart _ | .releaseCompletes _ | .replyGrant | .noticeGrant | .resendGrant | .dispatchGrant
  | .replyCompletes | .noticeCompletes | .firstTransmissionEnds | .resendEnds | .serviceTimerExpires _
  | .ident | .readEntry | .writeEntry | .clearEntry | .writeDefault | .copyBank | .swapBanks | .readLevel | .writeLevel
  | .setOrder | .maskLevels | .flushLevel | .readPort | .writePort | .readTrunk | .readCondition | .clearCondition
  | .inject | .readPool | .noticeEnable | .resetTraffic | .resetFull | .unsupportedOp => true

end Sys2Proof
end

