-- ==== Sys2Proof/Laws/PerInstr.lean ====
section
/-!
SUPPORT. A family of statements, one for each command as syntax: the frame that a well-formed frame command carries earns VALID at
the receiver it is sent to, with all its bytes (R4, R7 to R9).
-/

namespace Sys2Proof.Machine

/-- The receiver that a frame command's frame goes to, and the bytes its check covers. -/
def frameOf : Instr → Option (LinkKind × List Byte)
  | .event _ node code cond spare seq payload => some (.field, eventBody node code cond spare seq payload)
  | .complete ticket outcome => some (.trunk, completeBody ticket outcome)
  | .completeTop outcome => some (.trunk, completeTopBody outcome)
  | .pause duration => some (.trunk, pauseBody duration)
  | .resume => some (.trunk, resumeBody)
  | .request tag op operands => some (.trunk, requestBody tag op operands)
  | .resetNLow | .resetNRelease _ | .lineComesLive _ | .lineGoesDead _ | .badFrame _ _ | .badTrunkFrame _
  | .pauseTimerExpires | .classificationStart | .classificationCompletes | .swapTakesEffect | .copyStep
  | .copyCompletes | .releaseTransmissionStart _ | .releaseCompletes _ | .replyGrant | .noticeGrant | .resendGrant
  | .dispatchGrant | .replyCompletes | .noticeCompletes | .firstTransmissionEnds | .resendEnds
  | .serviceTimerExpires _ | .ident | .readEntry | .writeEntry | .clearEntry | .writeDefault | .copyBank | .swapBanks
  | .readLevel | .writeLevel | .setOrder | .maskLevels | .flushLevel | .readPort | .writePort | .readTrunk
  | .readCondition | .clearCondition | .inject | .readPool | .noticeEnable | .resetTraffic | .resetFull
  | .unsupportedOp => none

end Sys2Proof.Machine

namespace Sys2Proof.Laws.FrameEarnsValid

open Sys2Proof.Machine

/-- If the command carries a frame and is well formed, the receiver's verdict on the frame is VALID, with the bytes sent. -/
def Statement (i : Instr) : Prop :=
  ∀ k body, frameOf i = some (k, body) → i.wellFormed = true →
    frameVerdict k ((closeFrame body).foldl (RxFrame.push k) RxFrame.empty) = .valid (closeFrame body)

/-- A command without a frame. -/
theorem noFrame {i : Instr} (h : frameOf i = none) : Statement i := fun k body e => by simp [h] at e

theorem resetNLow : Statement .resetNLow := noFrame rfl

theorem resetNRelease (lines : LineJudgement) : Statement (.resetNRelease lines) := noFrame rfl

theorem lineComesLive (link : Link) : Statement (.lineComesLive link) := noFrame rfl

theorem lineGoesDead (link : Link) : Statement (.lineGoesDead link) := noFrame rfl

theorem event (port : PortId) (node : Byte) (code : Half) (cond spare : BitVec 2) (seq : BitVec 4) (payload : List Byte) :
    Statement (.event port node code cond spare seq payload) := by
  intro k body e h
  cases e
  simp only [Instr.wellFormed, eventFieldsOk, Bool.and_eq_true, bne_iff_ne, decide_eq_true_eq] at h
  exact frameVerdict_event node code spare seq h.1 h.2

theorem badFrame (port : PortId) (symbols : List Symbol) : Statement (.badFrame port symbols) := noFrame rfl

theorem badTrunkFrame (symbols : List Symbol) : Statement (.badTrunkFrame symbols) := noFrame rfl

theorem complete (ticket outcome : Byte) : Statement (.complete ticket outcome) := by
  intro k body e h
  cases e
  simp only [Instr.wellFormed, outcomeOk, Bool.and_eq_true, bne_iff_ne, Bool.or_eq_true, beq_iff_eq] at h
  exact frameVerdict_complete h.1 h.2

theorem completeTop (outcome : Byte) : Statement (.completeTop outcome) := by
  intro k body e h
  cases e
  simp only [Instr.wellFormed, outcomeOk, Bool.or_eq_true, beq_iff_eq] at h
  exact frameVerdict_completeTop h

theorem pause (duration : Byte) : Statement (.pause duration) := by
  intro k body e _
  cases e
  exact frameVerdict_pause duration

theorem resume : Statement .resume := by
  intro k body e _
  cases e
  exact frameVerdict_resume

theorem pauseTimerExpires : Statement .pauseTimerExpires := noFrame rfl

theorem request (tag op : Byte) (operands : List Byte) : Statement (.request tag op operands) := by
  intro k body e h
  cases e
  simp only [Instr.wellFormed, decide_eq_true_eq] at h
  exact frameVerdict_request tag op h

theorem classificationStart : Statement .classificationStart := noFrame rfl

theorem classificationCompletes : Statement .classificationCompletes := noFrame rfl

theorem swapTakesEffect : Statement .swapTakesEffect := noFrame rfl

theorem copyStep : Statement .copyStep := noFrame rfl

theorem copyCompletes : Statement .copyCompletes := noFrame rfl

theorem releaseTransmissionStart (port : PortId) : Statement (.releaseTransmissionStart port) := noFrame rfl

theorem releaseCompletes (port : PortId) : Statement (.releaseCompletes port) := noFrame rfl

theorem replyGrant : Statement .replyGrant := noFrame rfl

theorem noticeGrant : Statement .noticeGrant := noFrame rfl

theorem resendGrant : Statement .resendGrant := noFrame rfl

theorem dispatchGrant : Statement .dispatchGrant := noFrame rfl

theorem replyCompletes : Statement .replyCompletes := noFrame rfl

theorem noticeCompletes : Statement .noticeCompletes := noFrame rfl

theorem firstTransmissionEnds : Statement .firstTransmissionEnds := noFrame rfl

theorem resendEnds : Statement .resendEnds := noFrame rfl

theorem serviceTimerExpires (level : LevelId) : Statement (.serviceTimerExpires level) := noFrame rfl

theorem ident : Statement .ident := noFrame rfl

theorem readEntry : Statement .readEntry := noFrame rfl

theorem writeEntry : Statement .writeEntry := noFrame rfl

theorem clearEntry : Statement .clearEntry := noFrame rfl

theorem writeDefault : Statement .writeDefault := noFrame rfl

theorem copyBank : Statement .copyBank := noFrame rfl

theorem swapBanks : Statement .swapBanks := noFrame rfl

theorem readLevel : Statement .readLevel := noFrame rfl

theorem writeLevel : Statement .writeLevel := noFrame rfl

theorem setOrder : Statement .setOrder := noFrame rfl

theorem maskLevels : Statement .maskLevels := noFrame rfl

theorem flushLevel : Statement .flushLevel := noFrame rfl

theorem readPort : Statement .readPort := noFrame rfl

theorem writePort : Statement .writePort := noFrame rfl

theorem readTrunk : Statement .readTrunk := noFrame rfl

theorem readCondition : Statement .readCondition := noFrame rfl

theorem clearCondition : Statement .clearCondition := noFrame rfl

theorem inject : Statement .inject := noFrame rfl

theorem readPool : Statement .readPool := noFrame rfl

theorem noticeEnable : Statement .noticeEnable := noFrame rfl

theorem resetTraffic : Statement .resetTraffic := noFrame rfl

theorem resetFull : Statement .resetFull := noFrame rfl

theorem unsupportedOp : Statement .unsupportedOp := noFrame rfl

end Sys2Proof.Laws.FrameEarnsValid
end

