-- ==== Sys2Proof/Laws/Rank.lean ====
section
/-!
SUPPORT. The ranking of the levels (R104): a search in rank order finds the level that ranks above every other one that passes
the test.
-/

namespace Sys2Proof.Machine

theorem rankOrder_length (lowest : LevelId) : (rankOrder lowest).length = 16 := by simp [rankOrder]

theorem rankOrder_getElem (lowest : LevelId) (i : Nat) (h : i < (rankOrder lowest).length) :
    (rankOrder lowest)[i] = lowest - 1 - ⟨i, by simpa [rankOrder] using h⟩ := by
  simp [rankOrder]

/-- A level stands in the order at its place. -/
theorem rankOrder_place (lowest l : LevelId) :
    (rankOrder lowest)[(rankPlace lowest l).val]'(by simp [rankOrder]) = l := by
  rw [rankOrder_getElem]
  simp [rankPlace]

theorem mem_rankOrder (lowest l : LevelId) : l ∈ rankOrder lowest := by
  rw [← rankOrder_place lowest l]
  exact List.getElem_mem _

theorem ranksAbove_iff (lowest a b : LevelId) :
    ranksAbove lowest a b = true ↔ (rankPlace lowest a).val < (rankPlace lowest b).val := by
  simp [ranksAbove]

/-- A search in rank order finds the level that passes and ranks above every other one that does. -/
theorem find_rankOrder {lowest l : LevelId} {test : LevelId → Bool} (h : test l = true)
    (first : ∀ m, test m = true → m ≠ l → ranksAbove lowest l m = true) : (rankOrder lowest).find? test = some l := by
  cases hf : (rankOrder lowest).find? test with
  | none => exact absurd h (List.find?_eq_none.mp hf l (mem_rankOrder lowest l))
  | some m =>
    obtain ⟨hm, i, hi, hmi, before⟩ := List.find?_eq_some_iff_getElem.mp hf
    by_cases he : m = l
    · rw [he]
    · have hr := (ranksAbove_iff lowest l m).mp (first m hm he)
      have hp : (rankPlace lowest m).val = i := by
        rw [← hmi, rankOrder_getElem]
        simp [rankPlace]
      have := before _ (hp ▸ hr)
      rw [rankOrder_place] at this
      simp [h] at this

/-- A search in rank order finds nothing when no level passes. -/
theorem find_rankOrder_none {lowest : LevelId} {test : LevelId → Bool} (h : ∀ l, test l = false) :
    (rankOrder lowest).find? test = none :=
  List.find?_eq_none.mpr fun l _ => by simp [h l]

end Sys2Proof.Machine
end

