-- ==== Sys2Proof/Tests/Slice0.lean ====
section
/-!
SUPPORT. Tests of the model: the well-formedness check refuses an ill-formed term for each of its tests; the worked examples of the
manual come out as it prints them; and for every obligation with hypotheses a concrete state and operands that meet them, at the
boundary values where its clauses meet.
-/

namespace Sys2Proof.Tests

open Sys2Proof.Machine

set_option Elab.async false

/-! ### Small states -/

/-- The state after a command (no command stops). -/
def after (c : Instr) (s : State) : State :=
  match exec c s with
  | .next t => t
  | .fault _ => s
  | .refused _ => s

/-- Every line shows a working signal. -/
def allLive : LineJudgement := { fields := Vector.replicate 6 true, trunk := true }

/-- The part after a pin reset with every line live, the RESTARTED notice sent. -/
def live : State := after .noticeCompletes (State.released allLive [])

/-- RESET_N held low. -/
def heldLow : State := { live with resetHeld := true }

/-- A held record from F0. -/
def heldRecord (l : LevelId) : Record :=
  { kind := .held, level := l, origin := 0, node := 0x10, code := 0x0107, cond := .pulse, seq := 3, payload := [], repeats := 1,
    gen := 0, mayCoalesce := false }

/-- A posted record from F2. -/
def postedRecord (l : LevelId) : Record :=
  { kind := .posted, level := l, origin := 2, node := 0x2A, code := 0x0F12, cond := .pulse, seq := 1, payload := [0x41],
    repeats := 1, gen := 0, mayCoalesce := true }

/-- The record in service of `serving`. -/
def inService (l : LevelId) (ticket attempt : Byte) (phase : SubState) : ServiceRecord :=
  { record := heldRecord l, ticket := ticket, attempt := attempt, phase := phase }

/-- A held record of level `l` in service. -/
def serving (s : State) (l : LevelId) (ticket attempt : Byte) (phase : SubState) : State :=
  s.setInService l (some (inService l ticket attempt phase))

/-- A level's queue and its limit. -/
def queued (s : State) (l : LevelId) (queue : List Record) (limit : Byte) (policy : Policy) : State :=
  s.setLevel l { s.levelAt l with
    queue := queue, settings := { (s.levelAt l).settings with limit := limit, policy := policy } }

/-- A frame on the trunk. -/
def onWire (s : State) (granted : GrantedFrame) : State := s.onTrunk granted []

/-- The request of `asked`. -/
def request (op : Byte) (operands : List Byte) : QueuedRequest := { slot := 0, tag := 9, op := op, operands := operands }

/-- A request at the head of the request queue. -/
def asked (s : State) (op : Byte) (operands : List Byte) : State :=
  s.setManagement { s.management with
    slots := put s.management.slots 0 (some { tag := 9, op := op, progress := .queued })
    queue := [request op operands] }

/-- A port of `live` with some fields changed. -/
def withPort (p : PortId) (change : FieldPort → FieldPort) : State := live.setPort p (change (look live.ports p))

/-- An event with the fields that matter to a lookup. -/
def anEvent (node : Byte) (code : Half) (cond : Cond) : Event :=
  { node := node, code := code, cond := cond, seq := 5, payload := [] }

/-- A release request. -/
def aRelease : ReleaseRequest := { node := 0x10, code := 0x0107, seq := 3, outcome := .done }

/-- A reply that comes later. -/
def later : PendingReply := { slot := 1, tag := 8 }

/-- An event in flight from F3 in bank A. -/
def flightOf (reply : Option PendingReply) : FlightEvent :=
  { requester := 3, event := anEvent 0x55 0x0203 .clear, bank := .a, generation := 0, reply := reply }

/-- An event in flight. -/
def classifying (s : State) (reply : Option PendingReply) : State :=
  s.setClassifier { s.classifier with inFlight := some (flightOf reply) }

/-- A bank operation under way. -/
def operating (s : State) (operation : BankOperation) : State := s.setTable { s.table with operation := operation }

/-- Every reply slot held. -/
def slotsHeld : Management :=
  { live.management with slots := Vector.replicate 4 (some { tag := 9, op := 1, progress := .queued }) }

/-- Both refusal slots held as well. -/
def allHeld : Management :=
  { slotsHeld with refusals := Vector.replicate 2 (some { tag := 9, op := 1, status := .queueFull, data := [] }) }

/-! ### Well-formedness -/

theorem test_wellFormed_accepts :
    (Instr.event 0 1 2 2 0 3 (List.replicate 8 0)).wellFormed = true ∧ (Instr.complete 1 1).wellFormed = true ∧
    (Instr.completeTop 2).wellFormed = true ∧ (Instr.request 1 2 (List.replicate 24 0)).wellFormed = true ∧
    (Instr.badFrame 0 [.start, .endMarker]).wellFormed = true ∧ (Instr.badTrunkFrame [.start, .start]).wellFormed = true := by
  decide

theorem test_wellFormed_refuses_event_cond : (Instr.event 0 1 2 3 0 3 []).wellFormed = false := by decide
theorem test_wellFormed_refuses_event_payload :
    (Instr.event 0 1 2 0 0 3 (List.replicate 9 0)).wellFormed = false := by decide
theorem test_wellFormed_refuses_ticket : (Instr.complete 0 1).wellFormed = false := by decide
theorem test_wellFormed_refuses_outcome : (Instr.complete 1 3).wellFormed = false := by decide
theorem test_wellFormed_refuses_top_outcome : (Instr.completeTop 0).wellFormed = false := by decide
theorem test_wellFormed_refuses_operands : (Instr.request 1 2 (List.replicate 25 0)).wellFormed = false := by decide
theorem test_wellFormed_refuses_unopened_symbols : (Instr.badFrame 0 [.idle, .endMarker]).wellFormed = false := by decide
theorem test_wellFormed_refuses_unclosed_symbols : (Instr.badTrunkFrame [.start, .data 1]).wellFormed = false := by decide

/-! ### Worked examples of the manual -/

/-- The worked check of chapter 1. -/
theorem test_resume_check : closeFrame resumeBody = [0x65, 0xB1, 0x7C] := by decide +kernel

/-- Verdicts by example (chapter 1). -/
theorem test_verdicts_by_example :
    frameVerdict .trunk (gathered .trunk [0x65, 0xB1, 0x7C]) = .valid [0x65, 0xB1, 0x7C] ∧
    frameVerdict .field (gathered .field [0x65, 0xB1, 0x7C]) = .unknownKind ∧
    frameVerdict .trunk (gathered .trunk [0x65, 0xB1, 0x7D]) = .check ∧
    (Receiver.hunt.run .trunk [.start, .data 0x65, .data 0xB1, .abort]) = (.hunt, [.framing]) ∧
    (Receiver.hunt.run .trunk [.start, .data 0x65, .start]).2 = [.framing] ∧
    frameVerdict .field (gathered .field [0x51, 0x7C]) = .framing ∧
    frameVerdict .trunk (gathered .trunk (closeFrame [0x65, 0])) = .format ∧
    frameVerdict .field (gathered .field (closeFrame (eventBody 1 2 0 0 0 (List.replicate 9 7)))) = .format ∧
    frameVerdict .field (gathered .field (closeFrame (eventBody 1 2 3 0 0 [7]))) = .format := by decide +kernel

/-- The example bank of section 3.2. -/
def exampleBank : Bank :=
  let entry (ports : BitVec 7) (nv nm : Byte) (cv cm : Half) (conds : BitVec 3) (action : EntryAction) : Option Entry :=
    some { definition := { ports := ports, nodeValue := nv, nodeMask := nm, codeValue := cv, codeMask := cm, conds := conds,
                           action := action }
           hits := 0 }
  { entries := tabulate fun i =>
      match i.val with
      | 0 => entry 0x03 0x10 0xFF 0x0100 0xFF00 0b001 (.hold 12)
      | 1 => entry 0x3F 0 0 0x0200 0xFFF0 0b110 (.track 9 4)
      | 2 => entry 0x04 0x20 0xF0 0 0 0b111 (.forward 6)
      | 3 => entry 0x7F 0 0 0x0F00 0xFF00 0b111 .count
      | 4 => entry 0 0 0 0 0 0b111 .discard
      | 5 => entry 0x04 0x20 0xF0 0 0 0b111 (.forward 6)
      | _ => none
    defaultRecord := { action := .forward, level := 1, hits := 0 } }

/-- Events a to g of section 3.2. -/
theorem test_example_lookups :
    exampleBank.lookup 0 (anEvent 0x10 0x0107 .pulse) = { decider := some 0, action := .hold 12 } ∧
    exampleBank.lookup 1 (anEvent 0x10 0x0107 .assert) = { decider := none, action := .forward 1 } ∧
    exampleBank.lookup 3 (anEvent 0x55 0x0203 .clear) = { decider := some 1, action := .track 9 4 } ∧
    exampleBank.lookup 2 (anEvent 0x2A 0x0F12 .pulse) = { decider := some 2, action := .forward 6 } ∧
    exampleBank.lookup 6 (anEvent 0x20 0x0F00 .pulse) = { decider := some 3, action := .count } ∧
    exampleBank.lookup 2 (anEvent 0x31 0x0F05 .assert) = { decider := some 3, action := .count } := by decide +kernel

/-- Examples of definitions (section 3.4): the reasons. -/
theorem test_example_definitions :
    writeEntryReason [12, 2, 0x40, 0xF0, 0x10, 0, 0xF0, 0, 6, 3, 3, 7] = none ∧
    writeEntryReason [12, 2, 0x40, 0xF0, 0x10, 0, 0xF0, 0, 7, 3, 3, 7] = some 9 ∧
    writeEntryReason [12, 2, 0x41, 0xF0, 0x10, 0, 0xF0, 0, 6, 3, 3, 7] = some 6 ∧
    writeEntryReason [12, 2, 0x40, 0xF0, 0x10, 0, 0xF0, 0, 6, 3, 16, 0xFF] = some 7 ∧
    writeEntryReason [64, 2, 0x40, 0xF0, 0x10, 0, 0xF0, 0, 6, 3, 3, 7] = some 1 ∧
    writeEntryReason [20, 0, 0, 0, 0, 0, 0, 0, 1, 1, 2, 0xFF] = none ∧
    writeEntryReason [21, 0x3F, 0, 0, 0, 0, 0, 0, 7, 4, 40, 0xFF] = none ∧
    writeDefaultReason [2, 5] = some 3 ∧ writeDefaultReason [1, 0] = none ∧
    defaultRecordOf [5, 9] = { action := .discard, level := 0, hits := 0 } := by decide +kernel

/-- The ticket table of section 8.3. -/
theorem test_example_tickets :
    (live.setTicketCounter 0).newTicket = 1 ∧
    ((serving (serving (serving live 1 12 1 .resendWait) 2 42 1 .resendWait) 3 43 1 .resendWait).setTicketCounter 41).newTicket
      = 44 ∧
    ((serving (serving (serving live 1 255 1 .resendWait) 2 1 1 .resendWait) 3 7 1 .resendWait).setTicketCounter 254).newTicket
      = 2 ∧
    (live.setTicketCounter 255).newTicket = 1 := by decide +kernel

/-- The dispatch choice of section 8.3: level 12 in service, heads at 14, 12 and 9. -/
def dispatchExample : State :=
  queued (queued (queued (serving live 12 30 1 (.awaiting none)) 14 [heldRecord 14] 8 .dropNew) 12 [postedRecord 12] 8 .dropNew) 9
    [postedRecord 9] 8 .dropNew

theorem test_example_dispatch :
    dispatchExample.candidate 14 = true ∧ dispatchExample.candidate 12 = false ∧ dispatchExample.candidate 9 = false ∧
    (dispatchExample.setService { dispatchExample.service with nesting := .flat }).candidate 12 = true ∧
    (dispatchExample.setService { dispatchExample.service with nesting := .flat }).candidate 9 = true ∧
    dispatchExample.topCandidate = some 14 := by decide +kernel

/-- The slot of section 5.7 at steps 1 to 4: a change, two repeats, a change that level 9 turns away. -/
def trackExample (cond : Cond) (s : State) : State × ActionOutcome :=
  s.track { requester := 3, event := anEvent 0x55 0x0203 cond, bank := .a, generation := 4, reply := none } 9 4

theorem test_example_tracking :
    (let s1 := (trackExample .assert (queued live 9 [] 1 .dropNew)).1
     let s3 := (trackExample .assert (trackExample .assert s1).1).1
     look s1.conditions 4 = { state := .asserted, last := some (3, 0x55), changes := 1, absorbed := 0 } ∧
     look s3.conditions 4 = { state := .asserted, last := some (3, 0x55), changes := 1, absorbed := 2 } ∧
     (trackExample .clear s3).2 = .dropped ∧ look (trackExample .clear s3).1.conditions 4 = look s3.conditions 4 ∧
     ((trackExample .clear (queued s3 9 [] 1 .dropNew)).1.levelAt 9).queue.map Record.repeats = [3]) := by decide +kernel

/-- An IDENT request from its frame to its reply's frame (chapter 10). -/
theorem test_ident_through_the_trunk :
    (after .replyGrant (after .ident (after (.request 0x21 0x01 []) live))).trunk.tx.sending.map TrunkFrame.bytes =
      some (closeFrame [0x72, 0x21, 0x01, 0x00, 12, 0x4A, 0x46, 0x09, 0x9C, 3, 6, 64, 2, 16, 128, 32, 4]) := by
  decide +kernel

/-- At a release with the trunk LIVE the RESTARTED notice is on the wire at once, and a reply waits behind it (R153, R156). -/
theorem test_restarted_goes_before_a_reply :
    (let s := after .replyGrant (after .ident (after (.request 0x21 0x01 []) (after (.resetNRelease allLive) heldLow)))
     s.trunk.tx.sending.map TrunkFrame.bytes = some (closeFrame [0x73, 1, 0, 2, 1, 0]) ∧ s.trunk.replies.length = 1 ∧
     s.notices.nseq = 1) := by decide +kernel

/-- On a trunk that comes live later it goes ahead of the TRUNK notice that the change raises (R136, R156). -/
theorem test_restarted_waits_for_the_link :
    (let s := after (.lineComesLive .trunk) State.reset
     s.trunk.tx.sending.map TrunkFrame.bytes = some (closeFrame [0x73, 1, 0, 2, 1, 0]) ∧ s.notices.trunk = some 64 ∧
     (after .noticeGrant (after .noticeCompletes s)).trunk.tx.sending.map TrunkFrame.bytes =
       some (closeFrame [0x73, 6, 1, 1, 64])) := by decide +kernel

/-- An event held by the example bank from its frame to its dispatch, completion and RELEASE. -/
theorem test_held_event_through_the_part :
    (let s := { live with table := { live.table with bankA := exampleBank } }
     let sent := after .dispatchGrant (after .classificationCompletes
       (after .classificationStart (after (.event 0 0x10 0x0107 0 0 3 []) s)))
     sent.trunk.tx.sending.map TrunkFrame.bytes =
       some (closeFrame [0x61, 0x1C, 1, 1, 0, 0x10, 0x01, 0x07, 0x03, 1, 0, 0]) ∧
     (look (after (.releaseTransmissionStart 0) (after (.complete 1 1) sent)).ports 0).tx.sending =
       some (closeFrame [0x52, 0x10, 0x01, 0x07, 0x13])) := by decide +kernel

/-- An UP-EVENT sent again has `retry` and its `attempt` (section 1.7). -/
theorem test_resent_frame :
    upEventFrame (heldRecord 12) 30 2 = closeFrame [0x61, 0x3C, 30, 2, 0, 0x10, 0x01, 0x07, 0x03, 1, 0, 0] := by
  decide +kernel

/-- Level sets go low byte first: level 9 is bit 1 of the second byte (section 9.6). -/
theorem test_level_notice_data :
    (live.notices.levelCause 9).accumulated 128 .level = [0x00, 0x02] := by decide +kernel

/-! ### The obligations' hypotheses are met

Each witness is named after its obligation. A hypothesis that only names a value (an equation with a fresh variable on one side) is met
by that value and is not repeated. -/

theorem witness_EveryStepAnswersNext : live.pending = [] := by decide +kernel

theorem witness_PinResetGivesTheInitialState : heldLow.resetHeld = true ∧ live.Running := by decide +kernel

theorem witness_NothingRunsWhileResetIsHeld :
    heldLow.resetHeld = true ∧ Instr.resume ≠ .resetNLow ∧ (∀ lines, Instr.resume ≠ .resetNRelease lines) ∧
    (∀ link, Instr.resume ≠ .lineComesLive link) ∧ (∀ link, Instr.resume ≠ .lineGoesDead link) :=
  ⟨by decide +kernel, nofun, fun _ => nofun, fun _ => nofun, fun _ => nofun⟩

/-- The receiver of a port that has gathered one byte. -/
def cutPort (p : PortId) : State := withPort p fun x => { x with rx := .inFrame (gathered .field [0x51]) }

/-- A port that is DISABLED. -/
def disabledPort (p : PortId) : State := withPort p fun x => { x with enabled := false }

theorem witness_FieldLineEventsMoveThePort :
    (State.reset.Running ∧ (look State.reset.ports 0).rx = .dead) ∧
    (live.Running ∧ (look live.ports 5).rx ≠ .dead ∧ (look live.ports 5).enabled = true ∧ (look live.ports 5).rx = .hunt) ∧
    ((disabledPort 0).Running ∧ (look (disabledPort 0).ports 0).rx ≠ .dead ∧
      (look (disabledPort 0).ports 0).enabled = false) ∧
    ((cutPort 0).Running ∧ (look (cutPort 0).ports 0).enabled = true ∧
      (look (cutPort 0).ports 0).rx = .inFrame (gathered .field [0x51])) := by decide +kernel

/-- A frozen notice. -/
def aNotice : NoticeFrame := { kind := .pool, nseq := 0, data := [1, 0] }

theorem witness_TrunkLineEventsAbortTheFrame :
    (State.reset.Running ∧ State.reset.trunk.rx = .dead ∧ State.reset.trunk.tx.sending = none ∧
      State.reset.notices.restarted = some { cause := .power, tag := 0 } ∧ State.reset.notices.returned = none) ∧
    ({ State.reset.notices with returned := some aNotice } : NoticeUnit).returned = some aNotice ∧
    (let s := live.setTrunk { live.trunk with rx := .dead }
     s.Running ∧ s.trunk.rx = .dead ∧ ∀ x ∈ s.notices.restarted, x.cause ≠ .power) ∧
    (live.Running ∧ live.trunk.rx ≠ .dead ∧ live.onWire = none) ∧
    (onWire live .reply).onWire = some .reply ∧ (onWire live (.notice aNotice true)).onWire = some (.notice aNotice true) ∧
    (onWire live (.notice aNotice false)).onWire = some (.notice aNotice false) ∧
    (let s := onWire (serving live 12 30 2 .resending) (.resend 12 30)
     s.Running ∧ s.trunk.rx ≠ .dead ∧ s.onWire = some (.resend 12 (inService 12 30 2 .resending).ticket) ∧
      s.inServiceAt 12 = some (inService 12 30 2 .resending) ∧ (inService 12 30 2 .resending).phase = .resending) ∧
    (let s := onWire (serving live 12 30 1 .dispatching) (.dispatch 12 (some 30))
     s.onWire = some (.dispatch 12 (some (inService 12 30 1 .dispatching).ticket)) ∧
      s.inServiceAt 12 = some (inService 12 30 1 .dispatching) ∧ (inService 12 30 1 .dispatching).phase = .dispatching) ∧
    (let s := onWire (live.setLevelUnit { live.levelUnit with inTransmission := some (postedRecord 6) }) (.dispatch 6 none)
     s.onWire = some (.dispatch 6 none) ∧ s.levelUnit.inTransmission = some (postedRecord 6)) ∧
    (let s := onWire (serving live 12 31 1 .dispatching) (.dispatch 12 (some 30))
     s.onWire = some (.dispatch 12 (some 30)) ∧ ∀ r ∈ s.inServiceAt 12, r.ticket ≠ 30) ∧
    ((onWire live (.dispatch 6 none)).onWire = some (.dispatch 6 none) ∧
      (onWire live (.dispatch 6 none)).levelUnit.inTransmission = none) := by decide +kernel

/-- A level with one record pending, its limit and its high-water count. -/
def oneAt (r : Record) (limit : Byte) (policy : Policy) : State :=
  let s := queued live r.level [r] limit policy
  s.setLevel r.level { s.levelAt r.level with counts := { (s.levelAt r.level).counts with highWater := 1 } }

theorem witness_AbortReturnPutsTheRecordAtTheHead :
    ((oneAt (heldRecord 12) 2 .dropNew).levelAt (postedRecord 12).level).queue.length <
      ((oneAt (heldRecord 12) 2 .dropNew).levelAt (postedRecord 12).level).settings.limit.toNat ∧
    ((oneAt (heldRecord 12) 1 .dropNew).levelAt (postedRecord 12).level).queue = [] ++ [heldRecord 12] ∧
    ((oneAt (heldRecord 12) 1 .dropNew).levelAt (postedRecord 12).level).settings.limit.toNat = ([] : List Record).length + 1 ∧
    ([] : List Record).length + 1 ≤
      ((oneAt (heldRecord 12) 1 .dropNew).levelAt (postedRecord 12).level).counts.highWater.toNat := by decide +kernel

theorem witness_ReceiverFollowsItsTable : Symbol.data 0 ≠ .start ∧ Symbol.endMarker ≠ .start ∧ live.Running := by decide +kernel

theorem witness_CheckIsComputedAndJudged :
    resumeBody ≠ [] ∧ frameCheck resumeBody = joinBytes 0xB1 0x7C ∧ frameCheck resumeBody ≠ joinBytes 0xB1 0x7D := by
  decide +kernel

theorem witness_VerdictIsTheFirstFailedTest :
    [0x65, (0xB1 : Byte)].length < 3 ∧ (0x65 : Byte) ∉ [(0x51 : Byte)] ∧
    (0x51 : Byte) ∉ [(0x62 : Byte), 0x63, 0x64, 0x65, 0x71] ∧ (List.replicate 4 (0 : Byte)).length < 5 ∧
    ((List.replicate 4 (0 : Byte)).length = 4 ∧ 8 < (9 : Byte).toNat ∧ (List.replicate 7 (0 : Byte)).length ≠ (8 : Byte).toNat) ∧
    (List.replicate 2 (0 : Byte)).length < 3 ∧
    (24 < (25 : Byte).toNat ∧ (List.replicate 23 (0 : Byte)).length ≠ (24 : Byte).toNat) ∧
    ([1] : List Byte).length ≠ 2 ∧ ([] : List Byte).length ≠ 1 ∧ ([0] : List Byte) ≠ [] := by decide +kernel

theorem witness_ValidFramesSpellTheirFields :
    (2 : BitVec 2) ≠ 3 ∧ (List.replicate 8 (0 : Byte)).length ≤ 8 ∧ (255 : Byte) ≠ 0 ∧ (List.replicate 24 (0 : Byte)).length ≤ 24 := by
  decide +kernel

/-- A port whose receive queue holds `n` events. -/
def receiving (p : PortId) (n : Nat) : State :=
  withPort p fun x => { x with received := List.replicate n (anEvent 0x10 0x0107 .pulse) }

theorem witness_PortActsOnEachVerdict :
    (look (disabledPort 3).ports 3).enabled = false ∧ (look live.ports 3).enabled = true ∧
    parseEvent (closeFrame (eventBody 0x10 0x0107 0 0 5 [])) = some (anEvent 0x10 0x0107 .pulse) ∧
    (look (receiving 3 3).ports 3).received.length < 4 ∧ 4 ≤ (look (receiving 3 4).ports 3).received.length := by decide +kernel

theorem witness_EventJoinsTheReceiveQueue :
    (∀ s ∈ [disabledPort 3, receiving 3 3, receiving 3 4], s.Running ∧ (look s.ports 3).rx = .hunt) ∧
    (look (disabledPort 3).ports 3).enabled = false ∧ (look (receiving 3 3).ports 3).received.length < 4 ∧
    4 ≤ (look (receiving 3 4).ports 3).received.length ∧ (look (receiving 3 4).ports 3).enabled = true ∧
    (look State.reset.ports 3).rx = .dead ∧ 8 < (List.replicate 9 (0 : Byte)).length ∧
    (look (cutPort 3).ports 3).rx = .inFrame (gathered .field [0x51]) := by decide +kernel

theorem witness_BadFramesAreTakenSymbolBySymbol :
    live.Running ∧ (look live.ports 0).rx = .hunt ∧ live.trunk.rx = .hunt := by decide +kernel

/-- The trunk receiver has gathered one byte. -/
def cutTrunk : State := live.setTrunk { live.trunk with rx := .inFrame (gathered .trunk [0x65]) }

theorem witness_TrunkFramesReachTheirUnits :
    live.Running ∧ live.trunk.rx = .hunt ∧ (1 : Byte) ≠ 0 ∧ (List.replicate 24 (0 : Byte)).length ≤ 24 ∧
    (3 : Byte) ≠ 1 ∧ (3 : Byte) ≠ 2 ∧ 24 < (List.replicate 25 (0 : Byte)).length ∧
    State.reset.trunk.rx = .dead ∧ cutTrunk.Running ∧ cutTrunk.trunk.rx = .inFrame (gathered .trunk [0x65]) := by decide +kernel

theorem witness_PauseStateFollowsItsTable : live.Running ∧ live.trunk.rx = .hunt ∧ (255 : Byte) ≠ 0 := by decide +kernel

theorem witness_ConditionsAreSticky :
    member (look live.ports 0).conditions PortCondition.linkChange.bit = false ∧
    member (look (live.raisePort 0 .linkChange).ports 0).conditions PortCondition.linkChange.bit = true ∧
    member live.trunk.conditions TrunkCondition.linkChange.bit = false ∧
    member (live.raiseTrunk .linkChange).trunk.conditions TrunkCondition.linkChange.bit = true := by decide +kernel

theorem witness_CausesJoinTheAccumulation :
    (let n := live.notices
     let off := n.withEnables 0
     member n.enables 2 = true ∧ member n.enables 3 = true ∧ member off.enables 2 = false ∧ member off.enables 3 = false ∧
     n.lapse = none ∧ n.pool = none ∧
     ({ n with lapse := some { count := 255, ticket := 1, level := 2 } } : NoticeUnit).lapse =
      some { count := 255, ticket := 1, level := 2 } ∧ ({ n with pool := some 255 } : NoticeUnit).pool = some 255) := by
  decide +kernel

/-- Levels 12 and 3 in service. -/
def twoServing : State := serving (serving live 12 30 1 .dispatching) 3 31 2 .resendWait

theorem witness_CompletionsRetireTheirRecord :
    twoServing.Running ∧ twoServing.trunk.rx = .hunt ∧ twoServing.TicketsDistinct ∧
    twoServing.inServiceAt 3 = some (inService 3 31 2 .resendWait) ∧ (inService 3 31 2 .resendWait).ticket ≠ 0 ∧
    twoServing.inServiceAt 12 = some (inService 12 30 1 .dispatching) ∧
    twoServing.Highest (fun m => (twoServing.inServiceAt m).isSome) 12 := by
  unfold State.Highest
  decide +kernel

theorem witness_StrayCompletionsAreOnlyCounted :
    twoServing.Running ∧ twoServing.trunk.rx = .hunt ∧ (∀ l, ∀ r ∈ twoServing.inServiceAt l, r.ticket ≠ 32) ∧
    (32 : Byte) ≠ 0 ∧ live.Running ∧ live.trunk.rx = .hunt ∧ ∀ l, live.inServiceAt l = none := by decide +kernel

/-- A port whose release queue holds `n` requests. -/
def releasing (p : PortId) (n : Nat) : State := withPort p fun x => { x with releases := List.replicate n aRelease }

theorem witness_ReleaseRequestsAreRouted :
    (look (disabledPort 5).ports 5).enabled = false ∧ (look (releasing 5 7).ports 5).enabled = true ∧
    (look (releasing 5 7).ports 5).releases.length < 8 ∧ (look (releasing 5 8).ports 5).enabled = true ∧
    8 ≤ (look (releasing 5 8).ports 5).releases.length := by decide +kernel

theorem witness_ServiceTimerExpiryResendsOrLapses :
    (let s := serving live 12 30 2 (.awaiting (some 100))
     s.Running ∧ s.inServiceAt 12 = some (inService 12 30 2 (.awaiting (some 100))) ∧
      (inService 12 30 2 (.awaiting (some 100))).attempt.toNat < (s.levelAt 12).settings.retries.toNat + 1) ∧
    (let s := serving live 12 30 3 (.awaiting (some 100))
     s.Running ∧ s.inServiceAt 12 = some (inService 12 30 3 (.awaiting (some 100))) ∧
      (s.levelAt 12).settings.retries.toNat + 1 ≤ (inService 12 30 3 (.awaiting (some 100))).attempt.toNat) ∧
    live.inServiceAt 12 = none := by decide +kernel

/-- A state with an event in the injection slot. -/
def injecting (s : State) : State :=
  s.setClassifier { s.classifier with injection := some { event := anEvent 0x20 0x0F00 .pulse, reply := later } }

theorem witness_ClassificationStartsInTurn :
    (let s := receiving 5 1
     s.Running ∧ s.classifier.inFlight = none ∧ s.table.operation.isSwapPending = false ∧
      (look s.ports 5).received = [anEvent 0x10 0x0107 .pulse] ∧
      ∀ i : Fin 7, i < 5 - s.classifier.pointer → s.eligible (s.classifier.pointer + i) = false) ∧
    (let s := injecting live
     s.Running ∧ s.classifier.inFlight = none ∧ s.table.operation.isSwapPending = false ∧
      s.classifier.injection = some { event := anEvent 0x20 0x0F00 .pulse, reply := later } ∧
      ∀ j : Fin 7, j < 6 - s.classifier.pointer → s.eligible (s.classifier.pointer + j) = false) ∧
    ((classifying live none).classifier.inFlight ≠ none ∧
      (operating live (.swapPending later)).table.operation.isSwapPending = true ∧ ∀ r, live.eligible r = false) := by
  decide +kernel

/-- Ports 1 and 4 have an event each. -/
def twoReceiving : State :=
  (receiving 1 1).setPort 4 { look live.ports 4 with received := [anEvent 0x10 0x0107 .pulse] }

theorem witness_EveryStartBringsAWaitingRequesterNearer :
    twoReceiving.classifier.inFlight = none ∧ twoReceiving.eligible 4 = true ∧
    exec .classificationStart twoReceiving = .next (after .classificationStart twoReceiving) ∧
    (after .classificationStart twoReceiving).classifier.inFlight =
      some (twoReceiving.flight 1 (anEvent 0x10 0x0107 .pulse) none) ∧
    (twoReceiving.flight 1 (anEvent 0x10 0x0107 .pulse) none).requester ≠ 4 ∧
    ¬Resets .classificationStart ∧ ¬Resets .writePort :=
  ⟨by decide +kernel, by decide +kernel, rfl, by decide +kernel, by decide +kernel, (by rintro (⟨_, h⟩ | h | h) <;> cases h),
    (by rintro (⟨_, h⟩ | h | h) <;> cases h)⟩

/-- Classifications start and complete in turn, with four frames in every receive queue at first: a run in which F5, eligible all the
time, is served at the sixth start. -/
def busyCommand (i : Nat) : Instr := if i % 2 = 0 then .classificationStart else .classificationCompletes

/-- The state before the command at `i`. -/
def busyState : Nat → State
  | 0 => { live with ports := tabulate fun p => { look live.ports p with
      received := List.replicate 4 (anEvent 0x10 0x0107 .pulse) } }
  | i + 1 => after (busyCommand i) (busyState i)

theorem witness_EveryStartBringsAWaitingRequesterNearer_run :
    (∀ i, i < 13 → (busyState i).eligible 5 = true) ∧ 7 ≤ (List.range 13).countP (startsAt busyState) := by
  refine ⟨fun i h => ?_, ?_⟩
  · have := (by decide +kernel : ∀ i : Fin 13, (busyState i).eligible 5 = true) ⟨i, h⟩
    exact this
  · decide +kernel

theorem witness_EveryStartBringsAWaitingRequesterNearer_commands : Run busyCommand busyState := by
  intro i
  obtain ⟨t, h⟩ : ∃ t, exec (busyCommand i) (busyState i) = .next t := by
    unfold busyCommand
    split <;> exact ⟨_, rfl⟩
  rw [h, busyState, after, h]

theorem witness_LookupIsDecidedByTheFirstMatch :
    exampleBank.Legal ∧
    (∃ x, look exampleBank.entries 3 = some x ∧ x.definition.matchesEvent 6 (anEvent 0x20 0x0F00 .pulse) = true) ∧
    (∀ j, j < 3 → ∀ y ∈ look exampleBank.entries j,
      y.definition.matchesEvent 6 (anEvent 0x20 0x0F00 .pulse) = false) ∧
    (∀ j, ∀ y ∈ look exampleBank.entries j, y.definition.matchesEvent 1 (anEvent 0x10 0x0107 .assert) = false) :=
  ⟨by decide +kernel, ⟨(look exampleBank.entries 3).get (by decide +kernel), by decide +kernel⟩, by decide +kernel,
    by decide +kernel⟩

/-- An event in flight in a bank whose default record has the action given. -/
def defaultFlight (action : DefaultAction) (reply : Option PendingReply) : State :=
  classifying { live with table := { live.table with
    bankA := { live.table.bankA with defaultRecord := { action := action, level := 1, hits := 65535 } } } } reply

/-- An event in flight in a bank whose entry 63 has the action given. -/
def entryFlight (action : EntryAction) (reply : Option PendingReply) : State :=
  classifying { live with table := { live.table with
    bankA := live.table.bankA.setEntry 63 (some {
      ports := 0x7F, nodeValue := 0, nodeMask := 0, codeValue := 0, codeMask := 0, conds := 6, action := action }) } } reply

theorem witness_ClassificationCompletesByItsDecision :
    (∀ s ∈ [defaultFlight .forward none, defaultFlight .count none, defaultFlight .discard none, entryFlight (.hold 15) none,
        entryFlight (.track 15 31) none],
      s.Running ∧ s.classifier.inFlight = some (flightOf none) ∧ (flightOf none).reply = none ∧
        s.table.operation.isSwapPending = false) ∧
    ((defaultFlight .forward none).decide (flightOf none)).action = .forward 1 ∧
    ((defaultFlight .count none).decide (flightOf none)).action = .count ∧
    ((defaultFlight .discard none).decide (flightOf none)).action = .discard ∧
    ((entryFlight (.hold 15) none).decide (flightOf none)).action = .hold 15 ∧
    ((entryFlight (.track 15 31) none).decide (flightOf none)).action = .track 15 31 ∧ live.classifier.inFlight = none := by
  decide +kernel

theorem witness_TrackerForwardsChangesAndAbsorbsRepeats :
    (let slot (state : TrackState) : ConditionSlot := { state := state, last := none, changes := 65535, absorbed := 255 }
     (flightOf none).event.cond = .clear ∧ (slot .cleared).state = .cleared ∧ (slot .asserted).state ≠ .cleared ∧
      (slot .unknown).state ≠ .cleared ∧
      (live.admission ((flightOf none).changeRequest 9 (slot .unknown))).2 = .queued ∧
      ((oneAt (postedRecord 9) 1 .dropNew).admission ((flightOf none).changeRequest 9 (slot .unknown))).2 ≠ .queued) := by
  decide +kernel

/-- Level 6 with a posted record pending, coalescing on or off. -/
def coalescing (on : Bool) : State :=
  let s := oneAt (postedRecord 6) 1 .dropNew
  s.setLevel 6 { s.levelAt 6 with settings := { (s.levelAt 6).settings with coalesce := on } }

theorem witness_AdmissionMergesOrSuppressesRepeats :
    ((postedRecord 6).kind = .posted ∧ (postedRecord 6).mayCoalesce = true ∧
      ((coalescing true).levelAt 6).settings.coalesce = true ∧
      ((coalescing true).levelAt 6).queue = [] ++ postedRecord 6 :: []) ∧
    ((coalescing false).levelAt 6).settings.coalesce = false ∧ (heldRecord 6).kind = .held ∧
    (heldRecord 12 ∈ ((oneAt (heldRecord 12) 1 .dropNew).levelAt 12).queue ∧
      (heldRecord 12).origin = (heldRecord 6).origin ∧ (heldRecord 12).node = (heldRecord 6).node ∧
      (heldRecord 12).code = (heldRecord 6).code ∧ (heldRecord 12).seq = (heldRecord 6).seq) ∧
    ((serving live 12 30 1 .resendWait).inServiceAt 12 = some (inService 12 30 1 .resendWait) ∧
      (inService 12 30 1 .resendWait).record = heldRecord 12) ∧
    (∀ l, ∀ r ∈ ((coalescing true).levelAt l).queue, r.kind ≠ .held) ∧
    (∀ l, (coalescing true).inServiceAt l = none) := by decide +kernel

/-- A pool with no free record: four levels of 32 pending records. -/
def poolEmpty : State :=
  live.setLevelUnit { live.levelUnit with
    levels := tabulate fun l => { live.levelAt l with
      queue := if l.val < 4 then List.replicate 32 (postedRecord l) else []
      settings := { (live.levelAt l).settings with limit := 32 } } }

theorem witness_AdmissionTakesRoomAndARecord :
    ((oneAt (heldRecord 6) 2 .dropNew).levelAt 6).queue.length <
      ((oneAt (heldRecord 6) 2 .dropNew).levelAt 6).settings.limit.toNat ∧
    ((oneAt (heldRecord 6) 1 .dropNew).levelAt 6).queue.length =
      ((oneAt (heldRecord 6) 1 .dropNew).levelAt 6).settings.limit.toNat ∧
    ((oneAt (heldRecord 6) 1 .dropNew).levelAt 6).settings.policy = .dropNew ∧
    ((oneAt (heldRecord 6) 1 .dropOld).levelAt 6).settings.policy = .dropOld ∧
    ((oneAt (heldRecord 6) 1 .dropOld).levelAt 6).queue = heldRecord 6 :: [] ∧
    ((oneAt (postedRecord 6) 1 .dropOld).levelAt 6).queue = postedRecord 6 :: [] ∧
    (heldRecord 6).kind = .held ∧ (postedRecord 6).kind = .posted ∧ 0 < live.freeRecords ∧ poolEmpty.freeRecords = 0 := by
  decide +kernel

theorem witness_SwapExchangesTheRoles :
    (operating live (.swapPending later)).table.operation = .swapPending later ∧
    (operating live (.swapPending later)).classifier.inFlight = none ∧ live.table.operation.isSwapPending = false ∧
    (classifying live none).classifier.inFlight ≠ none ∧
    (∀ s ∈ [asked live 7 [], asked (classifying live none) 7 [], asked (operating live (.copying .finished later)) 7 []],
      s.Running ∧ s.Head (request 7 []) []) ∧
    (asked live 7 []).table.operation = .idle ∧ (asked live 7 []).classifier.inFlight = none ∧
    (asked (classifying live none) 7 []).classifier.inFlight ≠ none ∧
    (asked (operating live (.copying .finished later)) 7 []).table.operation ≠ .idle ∧
    (let s := operating (classifying live none) (.swapPending later)
     s.Running ∧ s.classifier.inFlight = some (flightOf none) ∧ s.table.operation = .swapPending later) := by decide +kernel

theorem witness_SwapExchangesTheRoles_done :
    (let s := operating (classifying live none) (.swapPending later)
     exec .classificationCompletes { s with table := { s.table with operation := .idle } } =
      .next (after .classificationCompletes { s with table := { s.table with operation := .idle } })) := rfl

theorem witness_CopyReplacesItemByItem :
    (asked live 6 []).Running ∧ (asked live 6 []).Head (request 6 []) [] ∧ (asked live 6 []).table.operation = .idle ∧
    (asked (operating live (.swapPending later)) 6 []).table.operation ≠ .idle ∧
    (operating live (.copying (.entry 63) later)).table.operation = .copying (.entry 63) later ∧
    (operating live (.copying .defaultRecord later)).table.operation = .copying .defaultRecord later ∧
    (operating live (.copying .finished later)).table.operation = .copying .finished later ∧
    live.table.operation.progress = none := by decide +kernel

/-- The first definition of section 3.4. -/
def exampleOperands : List Byte := [12, 2, 0x40, 0xF0, 0x10, 0, 0xF0, 0, 6, 3, 3, 7]

theorem witness_DefinitionsAreCheckedAndReadBack :
    63 < (64 : Byte).toNat ∧ (0 : Byte).toNat < 1 ∧ 5 < (6 : Byte).toNat ∧ (0x80 : Byte).msb = true ∧ (8 : Byte).toNat ≥ 8 ∧
    (0x41 : Byte) &&& ~~~(0xF0 : Byte) ≠ 0 ∧ 15 < (16 : Byte).toNat ∧ 31 < (32 : Byte).toNat ∧
    (7 : Byte).getLsbD 0 = true ∧ exampleOperands.length = 12 ∧ writeEntryReason exampleOperands = none := by decide +kernel

theorem witness_WritesReachTheStandbyBankOnly :
    (let s := asked live 3 exampleOperands
     s.Running ∧ s.Head (request 3 exampleOperands) [] ∧ s.table.operation = .idle) ∧
    writeEntryReason (64 :: exampleOperands.drop 1) = some 1 ∧
    (asked (operating live (.copying (.entry 0) later)) 3 exampleOperands).table.operation ≠ .idle ∧
    ((asked live 4 [63]).Head (request 4 [63]) [] ∧ (63 : EntryId).val = (63 : Byte).toNat ∧ 63 < (64 : Byte).toNat) ∧
    (asked live 5 [1, 15]).Head (request 5 [1, 15]) [] ∧ (15 : Byte).toNat ≤ 15 ∧ 15 < (16 : Byte).toNat ∧
    ({ action := .forward, level := 15, hits := 0 } : DefaultRecord).level.val = (15 : Byte).toNat := by decide +kernel

theorem witness_ReadEntryReportsOneItem :
    (let s := asked live 2 [1, 63, 1]
     s.Running ∧ s.Head (request 2 [1, 63, 1]) [] ∧ (1 : Byte) = letter .b ∧ (63 : EntryId).val = (63 : Byte).toNat ∧
      (1 : Byte).toNat ≤ 1) ∧
    ((asked live 2 [0, 64, 0]).Head (request 2 [0, 64, 0]) [] ∧ (0 : Byte) = letter .a) ∧
    1 < (2 : Byte).toNat ∧ 64 < (65 : Byte).toNat := by decide +kernel

theorem witness_RequestsAreAcceptedOrRefused :
    (live.Running ∧ live.trunk.rx = .hunt ∧ (List.replicate 24 (0 : Byte)).length ≤ 24) ∧
    (∃ i, look live.management.slots i = none) ∧
    ((live.setManagement slotsHeld).Running ∧ (∀ i, look slotsHeld.slots i ≠ none) ∧ (∃ i, look slotsHeld.refusals i = none)) ∧
    ((∀ i, look allHeld.slots i ≠ none) ∧ ∀ i, look allHeld.refusals i ≠ none) := by decide +kernel

theorem witness_BadRequestsAreAnsweredAndChangeNothing :
    ((asked live 0 []).Running ∧ (asked live 0 []).Head (request 0 []) [] ∧
      (asked live 0x16 []).Head (request 0x16 []) [] ∧ 0x15 < (request 0x16 []).op.toNat) ∧
    ((.ident, 0x01, 0) ∈ fixedOperations ∧ (request 0x01 [0]).operands.length ≠ 0) ∧
    ((request 0x12 [1, 2, 3, 0, 5]).operands.length < 6 ∧
      (operand (request 0x12 [1, 2, 3, 0, 5, 1]).operands 5).toNat + 6 ≠ (request 0x12 [1, 2, 3, 0, 5, 1]).operands.length ∧
      8 < (operand [1, 2, 3, 0, 5, 9] 5).toNat) ∧
    ((request 0x15 [3]).operands = [3] ∧ (3 : Byte) ≠ 1 ∧ (3 : Byte) ≠ 2) ∧ live.management.queue = [] := by decide +kernel

theorem witness_IdentReportsThePart : (asked live 1 []).Running ∧ (asked live 1 []).Head (request 1 []) [] := by decide +kernel

theorem witness_LevelsAndPoolAreReadAndWritten :
    (let s := asked twoServing 8 [12, 1]
     s.Running ∧ s.Head (request 8 [12, 1]) [] ∧ (12 : LevelId).val = (12 : Byte).toNat ∧ (1 : Byte).toNat ≤ 1) ∧
    15 < (16 : Byte).toNat ∧ 1 < (2 : Byte).toNat ∧
    (let s := asked (oneAt (heldRecord 15) 8 .dropNew) 9 [15, 1, 2, 1, 255, 7]
     s.Running ∧ s.Head (request 9 [15, 1, 2, 1, 255, 7]) [] ∧ (15 : LevelId).val = (15 : Byte).toNat ∧
      (s.levelAt 15).queue.length ≤ (1 : Byte).toNat) ∧
    (1 : Byte).toNat < ((queued live 15 [heldRecord 15, postedRecord 15] 8 .dropNew).levelAt 15).queue.length ∧
    32 < (33 : Byte).toNat ∧ (32 : Byte).toNat ≤ 32 ∧ 7 < (8 : Byte).toNat ∧
    (asked live 0x13 []).Head (request 0x13 []) [] := by decide +kernel

theorem witness_OrderAndMaskAreSet :
    (asked live 0x0A [2, 15, 2]).Running ∧ (asked live 0x0A [2, 15, 2]).Head (request 0x0A [2, 15, 2]) [] ∧
    (15 : LevelId).val = (15 : Byte).toNat ∧ 15 < (16 : Byte).toNat ∧ (3 : Byte) ≠ 1 ∧ (3 : Byte) ≠ 2 ∧
    (asked live 0x0B [0x80, 0x01]).Head (request 0x0B [0x80, 0x01]) [] := by decide +kernel

theorem witness_FlushEmptiesTheLevel :
    (let s := asked (queued live 15 [heldRecord 15] 8 .dropNew) 0x0C [15]
     s.Running ∧ s.Head (request 0x0C [15]) [] ∧ (15 : LevelId).val = (15 : Byte).toNat ∧ s.inServiceAt 15 = none) ∧
    (asked twoServing 0x0C [12]).inServiceAt 12 = some (inService 12 30 1 .dispatching) ∧ 15 < (16 : Byte).toNat := by
  decide +kernel

theorem witness_PortsAreReadAndConfigured :
    (let s := asked live 0x0D [5]
     s.Running ∧ s.Head (request 0x0D [5]) [] ∧ (5 : PortId).val = (5 : Byte).toNat) ∧ 5 < (6 : Byte).toNat ∧
    (let s := asked live 0x0E [5, 0, 1]
     s.Running ∧ s.Head (request 0x0E [5, 0, 1]) [] ∧ (1 : Byte).toNat ≤ 1 ∧ (look s.ports 5).enabled = true) ∧
    (asked live 0x0E [5, 1, 0]).Head (request 0x0E [5, 1, 0]) [] ∧ (look (disabledPort 5).ports 5).enabled = false ∧
    1 < (2 : Byte).toNat := by decide +kernel

theorem witness_TrunkIsReadAndNoticesEnabled :
    (asked live 0x0F []).Running ∧ (asked live 0x0F []).Head (request 0x0F []) [] ∧
    (asked live 0x14 [31]).Head (request 0x14 [31]) [] ∧ (31 : Byte).toNat ≤ 31 ∧ 31 < (32 : Byte).toNat ∧
    (kindOn 31 .restarted = true ∧ kindOn 31 .port = (31 : Byte).getLsbD 0 ∧ kindOn 31 .level = (31 : Byte).getLsbD 1 ∧
      kindOn 31 .lapse = (31 : Byte).getLsbD 2 ∧ kindOn 31 .pool = (31 : Byte).getLsbD 3 ∧
      kindOn 31 .trunk = (31 : Byte).getLsbD 4) := by decide +kernel

theorem witness_ConditionSlotsAreReadAndCleared :
    (let s := asked (live.setCondition 31 { state := .asserted, last := some (6, 0x55), changes := 1, absorbed := 2 }) 0x10 [31]
     s.Running ∧ s.Head (request 0x10 [31]) [] ∧ (31 : SlotId).val = (31 : Byte).toNat ∧
      (look s.conditions 31).state = .asserted ∧ (look s.conditions 31).last = some (6, 0x55)) ∧
    (look live.conditions 31).last = none ∧ (look live.conditions 31).state = .unknown ∧ 31 < (32 : Byte).toNat ∧
    (32 : Byte) ≠ 0xFF ∧ (asked live 0x11 [0xFF]).Head (request 0x11 [0xFF]) [] ∧
    (asked live 0x11 [31]).Head (request 0x11 [31]) [] := by decide +kernel

/-- The operands of an INJECT with a payload of 8 bytes. -/
def injectOperands : List Byte := 0x20 :: 0x0F :: 0x00 :: 2 :: 15 :: 8 :: List.replicate 8 0x41

theorem witness_InjectFillsTheSlotAndIsAnsweredLater :
    (let s := asked live 0x12 injectOperands
     s.Running ∧ s.Head (request 0x12 injectOperands) [] ∧ (List.replicate 8 (0x41 : Byte)).length = (8 : Byte).toNat ∧
      (8 : Byte).toNat ≤ 8 ∧ (2 : Byte).toNat = (condCode .clear).toNat ∧ (15 : Byte).toNat ≤ 15 ∧
      s.classifier.injection = none) ∧
    (injecting live).classifier.injection ≠ none ∧ 2 < (3 : Byte).toNat ∧ 15 < (16 : Byte).toNat ∧
    (∀ s ∈ [defaultFlight .forward (some later), defaultFlight .count (some later), defaultFlight .discard (some later),
        entryFlight (.hold 15) (some later), entryFlight (.track 15 31) (some later)],
      s.Running ∧ s.classifier.inFlight = some (flightOf (some later)) ∧ (flightOf (some later)).reply = some later ∧
        s.table.operation.isSwapPending = false) ∧
    ((defaultFlight .forward (some later)).decide (flightOf (some later))).action = .forward 1 ∧
    ((defaultFlight .count (some later)).decide (flightOf (some later))).action = .count ∧
    ((defaultFlight .discard (some later)).decide (flightOf (some later))).action = .discard ∧
    ((entryFlight (.hold 15) (some later)).decide (flightOf (some later))).action = .hold 15 ∧
    ((entryFlight (.track 15 31) (some later)).decide (flightOf (some later))).action = .track 15 31 := by decide +kernel

theorem witness_TrafficResetDiscardsTheTraffic :
    (let s := asked (operating (injecting (classifying live (some { slot := 2, tag := 7 }))) (.swapPending { slot := 3, tag := 6 }))
        0x15 [1]
     s.Running ∧ s.Head (request 0x15 [1]) [] ∧ (s.classifier.inFlight.bind FlightEvent.reply).isSome ∧
      s.classifier.injection.isSome ∧ s.table.operation = .swapPending { slot := 3, tag := 6 }) ∧
    (asked live 0x15 [1]).table.operation.isSwapPending = false := by decide +kernel

theorem witness_FullResetGivesTheInitialState :
    (asked live 0x15 [2]).Running ∧ (asked live 0x15 [2]).Head (request 0x15 [2]) [] := by decide +kernel

theorem witness_ReleasesAreSentInOrder :
    (let s := releasing 5 1
     s.Running ∧ (look s.ports 5).enabled = true ∧ (look s.ports 5).rx ≠ .dead ∧ (look s.ports 5).tx.sending = none ∧
      (look s.ports 5).releases = [aRelease] ∧ (look s.ports 5).headMarked = false) ∧
    (look live.ports 5).releases = [] ∧ (look (disabledPort 5).ports 5).enabled = false ∧
    (look State.reset.ports 5).rx = .dead ∧
    (let s := after (.releaseTransmissionStart 5) (releasing 5 1)
     s.Running ∧ (look s.ports 5).tx.sending ≠ none ∧ (look s.ports 5).headMarked = true) := by decide +kernel

/-- A reply is ready. -/
def replyReady : State := live.produceReply 0 { tag := 9, op := 1, status := .ok, data := [] }

/-- The Notice Unit with one kind latched. -/
def latching (n : NoticeUnit → NoticeUnit) : State := live.setNotices (n live.notices)

theorem witness_RepliesGoFirstThenNotices :
    (replyReady.Running ∧ replyReady.trunk.rx ≠ .dead ∧ replyReady.trunk.tx.sending = none ∧ replyReady.trunk.replies ≠ []) ∧
    (live.Running ∧ live.trunk.rx ≠ .dead ∧ live.trunk.tx.sending = none ∧ live.trunk.replies = [] ∧
      live.notices.returned = none) ∧
    (latching fun _ => pinNotices .full 9).notices.restarted = some { cause := .full, tag := 9 } ∧
    (latching fun n => { n with returned := some aNotice }).notices.returned = some aNotice ∧
    (∀ kind ∈ noticeOrder, (latching id).notices.latched kind = false) ∧
    (latching fun n => n.trunkCause .stray).notices.trunk = some 16 ∧ (latching fun n => n.poolCause).notices.pool = some 1 ∧
    (latching fun n => n.lapseCause 7 3).notices.lapse = some { count := 1, ticket := 7, level := 3 } ∧
    (latching fun n => n.levelCause 15).notices.level = some 0x8000 ∧ (latching fun n => n.portCause 5).notices.port = some 32 ∧
    (State.reset.Running ∧ State.reset.trunk.rx = .dead ∧ (onWire live .reply).trunk.tx.sending ≠ none) := by decide +kernel

/-- Levels 12 and 3 wait for their resends, the notices sent. -/
def twoWaiting : State := serving (serving (latching id) 12 30 1 .resendWait) 3 31 2 .resendWait

/-- Levels 14 and 9 have records pending, nothing in service. -/
def twoPending : State := queued (queued (latching id) 14 [heldRecord 14] 8 .dropNew) 9 [postedRecord 9] 8 .dropNew

theorem latching_id_notices (kind : NoticeKind) : (latching id).notices.latched kind = false := by
  cases kind <;> decide +kernel

theorem witness_ResendsGoAheadOfDispatches_resend :
    twoWaiting.Running ∧ twoWaiting.EventsMayGo ∧ twoWaiting.inServiceAt 12 = some (inService 12 30 1 .resendWait) ∧
    twoWaiting.Highest (fun m => twoWaiting.waitsForResend m = true) 12 :=
  ⟨by decide +kernel, ⟨by decide +kernel, by decide +kernel, by decide +kernel, by decide +kernel, latching_id_notices,
    by decide +kernel⟩, by decide +kernel, by unfold State.Highest; decide +kernel⟩

theorem twoPending_levels : ∀ l, (twoPending.levelAt l).masked = false ∧ twoPending.inServiceAt l = none ∧
    ((twoPending.levelAt l).queue ≠ [] ↔ l = 14 ∨ l = 9) := by decide +kernel

theorem witness_ResendsGoAheadOfDispatches_dispatch :
    twoPending.Running ∧ twoPending.EventsMayGo ∧ (∀ m, twoPending.waitsForResend m = false) ∧
    twoPending.Highest twoPending.Candidate 14 ∧ (twoPending.levelAt 14).queue = heldRecord 14 :: [] ∧
    (heldRecord 14).kind = .held ∧ (postedRecord 14).kind = .posted := by
  refine ⟨by decide +kernel, ⟨by decide +kernel, by decide +kernel, by decide +kernel, by decide +kernel, latching_id_notices,
    by decide +kernel⟩, by decide +kernel, ⟨⟨by decide +kernel, ⟨heldRecord 14, [], by decide +kernel, .inr (by decide +kernel)⟩,
    fun _ m => by revert m; decide +kernel⟩, fun m c n => ?_⟩, by decide +kernel, rfl, rfl⟩
  obtain ⟨r, rest, e, -⟩ := c.2.1
  have h : m = 14 ∨ m = 9 := (twoPending_levels m).2.2.mp (by rw [e]; exact List.cons_ne_nil _ _)
  rcases h with rfl | rfl
  · exact absurd rfl n
  · decide +kernel

theorem witness_ResendsGoAheadOfDispatches_none :
    (∀ l, ¬live.Candidate l) ∧ replyReady.trunk.replies ≠ [] ∧ (latching fun _ => pinNotices .full 9).notices.latched .restarted = true ∧
    (live.setTrunk { live.trunk with pause := .paused 1 }).trunk.pause ≠ .running := by
  refine ⟨fun l c => ?_, by decide +kernel, by decide +kernel, by decide +kernel⟩
  obtain ⟨r, rest, e, -⟩ := c.2.1
  have h : ∀ l, (live.levelAt l).queue = [] := by decide +kernel
  rw [h l] at e
  cases e

theorem witness_TransmissionEndsReachTheirOwner :
    (let s := onWire replyReady .reply
     s.Running ∧ s.onWire = some .reply ∧ s.trunk.replies =
      [{ source := .reply 0, reply := { tag := 9, op := 1, status := .ok, data := [] } }]) ∧
    (onWire live (.notice aNotice true)).onWire = some (.notice aNotice true) ∧
    (let s := onWire (live.setLevelUnit { live.levelUnit with inTransmission := some (postedRecord 6) }) (.dispatch 6 none)
     s.onWire = some (.dispatch 6 none) ∧ s.levelUnit.inTransmission = some (postedRecord 6)) ∧
    (onWire live (.dispatch 6 none)).levelUnit.inTransmission = none ∧
    (let s := onWire (serving live 12 30 1 .dispatching) (.dispatch 12 (some 30))
     s.onWire = some (.dispatch 12 (some 30)) ∧ s.inServiceAt 12 = some (inService 12 30 1 .dispatching)) ∧
    (let s := onWire (serving live 12 30 2 .resending) (.resend 12 30)
     s.onWire = some (.resend 12 30) ∧ s.inServiceAt 12 = some (inService 12 30 2 .resending)) ∧
    (∀ r ∈ (onWire live (.resend 12 30)).inServiceAt 12, r.ticket ≠ 30) ∧ live.onWire ≠ some .reply := by decide +kernel

/-- What every step keeps holds at reset, where nothing is pending, and in a state with a record in service, one pending and one in
transmission. -/
def busy : State :=
  let s := serving (oneAt (heldRecord 12) 8 .dropNew) 3 31 1 (.awaiting none)
  onWire (s.setLevelUnit { s.levelUnit with inTransmission := some (postedRecord 6), lowWater := 125 }) (.dispatch 6 none)

/-- The record in service of `busy` differs from the pending one in its `seq`. -/
def busyKept : State :=
  busy.setInService 3 (some { inService 3 31 1 (.awaiting none) with record := { heldRecord 3 with seq := 4 } })

theorem witness_EveryStepKeepsThePorts : busyKept.PortsKept :=
  by decide +kernel

theorem witness_EveryStepKeepsTheTable : busyKept.DefinitionsLegal ∧ busyKept.TableKept :=
  ⟨by decide +kernel, by decide +kernel⟩

theorem witness_EveryStepKeepsTheLevels : busyKept.LevelsKept ∧ busyKept.RecordsKept :=
  ⟨by decide +kernel, by decide +kernel⟩

theorem witness_EveryStepKeepsThePool : busyKept.PoolKept ∧ busyKept.NoHeldTwice :=
  ⟨by decide +kernel, by decide +kernel⟩

theorem witness_EveryStepKeepsTheService : busyKept.ServiceKept :=
  by decide +kernel

theorem witness_EveryStepKeepsTrunkAndSlots :
    busyKept.TrunkKept ∧ busyKept.SlotsKept ∧ State.reset.RestartedGoesFirst ∧ State.reset.notices.powerWaits = true :=
  ⟨by decide +kernel, by decide +kernel, by decide +kernel, by decide +kernel⟩

theorem witness_EveryStepKeeps_step : step busyKept = .next busyKept := rfl

end Sys2Proof.Tests
end

section
/-!
The line receiver by its table and the check of a frame (R3, R5, R6). A run of symbols is taken as its first symbol and then the
rest, which holds because acting on a verdict neither reads nor writes the state of the line's own receiver.
-/

namespace Sys2Proof.Machine

/-! ### The check register (R5) -/

/-- A byte meets the high half of the check register. -/
theorem append_zero_eq_shift (b : Byte) : (b ++ (0 : Byte) : Half) = b.zeroExtend 16 <<< 8 := by
  revert b
  decide

theorem frameCheck_append_byte (body : List Byte) (b : Byte) : frameCheck (body ++ [b]) = crcByte (frameCheck body) b :=
  crcRun_append _ _ _

theorem crcStep_eq_ite (r : Half) : crcStep r = if r.toNat < 32768 then r <<< 1 else (r <<< 1) ^^^ 0x2F15 := by
  rw [crcStep, BitVec.msb_eq_decide]
  by_cases h : r.toNat < 32768
  · simp [h]
  · simp [h, Nat.le_of_not_lt h]

theorem hiByte_eq_div (h : Half) : hiByte h = BitVec.ofNat 8 (h.toNat / 256) := by
  simp [hiByte, BitVec.extractLsb', Nat.shiftRight_eq_div_pow]

theorem loByte_eq_mod (h : Half) : loByte h = BitVec.ofNat 8 (h.toNat % 256) := by
  apply BitVec.eq_of_toNat_eq
  simp [loByte]

/-! ### The check judged (R6) -/

/-- The check is the first test after the count of bytes. -/
theorem frameVerdict_eq_check_iff {k : LinkKind} {f : RxFrame} (long : 3 ≤ f.count) :
    frameVerdict k f = .check ↔ f.crc ≠ 0 := by
  rw [frameVerdict, if_neg (by omega)]
  by_cases h : f.crc = 0
  · rw [if_neg (not_not_intro h)]
    split_ifs <;> simp [h]
  · rw [if_pos h]
    exact iff_of_true rfl h

/-- The receiver's running register judges as R6's comparison does. -/
theorem frameVerdict_gathered_eq_check_iff (k : LinkKind) {body : List Byte} (hi lo : Byte) (nonempty : body ≠ []) :
    frameVerdict k (gathered k (body ++ [hi, lo])) = .check ↔ frameCheck body ≠ joinBytes hi lo := by
  have hpos : 0 < body.length := List.length_pos_iff.mpr nonempty
  rw [gathered, gathered_eq, frameVerdict_eq_check_iff (by simp; omega)]
  exact not_congr crcRun_frame

/-- Settles O10: R5 step by step, and both judgements of R6 by the register's linearity. -/
theorem checkIsComputedAndJudged : Obligations.CheckIsComputedAndJudged := by
  unfold Obligations.CheckIsComputedAndJudged
  refine ⟨⟨rfl, fun body b => ?computed, crcStep_eq_ite, fun body => ?sent⟩, fun _ _ _ => crcRun_frame,
    fun k _ hi lo nonempty differ => (frameVerdict_gathered_eq_check_iff k hi lo nonempty).mpr differ,
    fun k _ hi lo nonempty agree => ?judgedRight⟩
  case computed => rw [frameCheck_append_byte, crcByte_eq, append_zero_eq_shift]
  case sent => rw [closeFrame, numberBytes, hiByte_eq_div, loByte_eq_mod]
  case judgedRight =>
    rw [Ne, frameVerdict_gathered_eq_check_iff k hi lo nonempty]
    exact not_not_intro agree

/-! ### The receiver's table (R3) -/

theorem Receiver.take_hunt_of_ne_start (k : LinkKind) {x : Symbol} (h : x ≠ .start) :
    Receiver.hunt.take k x = (.hunt, none) := by
  cases x with
  | start => exact absurd rfl h
  | data b => rfl
  | idle => rfl
  | endMarker => rfl
  | abort => rfl
  | violation => rfl

theorem gathered_append_byte (k : LinkKind) (bytes : List Byte) (b : Byte) :
    gathered k (bytes ++ [b]) = (gathered k bytes).push k b :=
  List.foldl_append

theorem storeLimit_eq_ite (k : LinkKind) : storeLimit k = if k = .field then 16 else 30 := by
  cases k <;> rfl

/-! ### Acting on a verdict leaves a field port's receiver alone -/

/-- State with a field port's receiver replaced. -/
def State.withPortRx (s : State) (p : PortId) (rx : Receiver) : State := s.setPort p { look s.ports p with rx := rx }

@[simp] theorem State.withPortRx_look (s : State) (p : PortId) (rx : Receiver) :
    look (s.withPortRx p rx).ports p = { look s.ports p with rx := rx } := by
  simp [State.withPortRx]

@[simp] theorem State.withPortRx_notices (s : State) (p : PortId) (rx : Receiver) :
    (s.withPortRx p rx).notices = s.notices := rfl

@[simp] theorem State.withPortRx_withPortRx (s : State) (p : PortId) (rx rx' : Receiver) :
    (s.withPortRx p rx).withPortRx p rx' = s.withPortRx p rx' := by
  simp [State.withPortRx, State.setPort]

/-- An update of a port that takes its receiver as it finds it. -/
theorem State.setPort_withPortRx (s : State) (p : PortId) (rx : Receiver) (port : FieldPort) :
    (s.withPortRx p rx).setPort p { port with rx := rx } = (s.setPort p port).withPortRx p rx := by
  simp [State.withPortRx, State.setPort]

theorem State.raisePort_withPortRx (s : State) (p : PortId) (rx : Receiver) (c : PortCondition) :
    (s.withPortRx p rx).raisePort p c = (s.raisePort p c).withPortRx p rx := by
  have joined := State.setPort_withPortRx s p rx
    { look s.ports p with conditions := insertMember (look s.ports p).conditions c.bit }
  unfold State.raisePort
  simp only [State.withPortRx_look, State.withPortRx_notices]
  split_ifs
  · rfl
  · exact congrArg (State.setNotices · (s.notices.portCause p)) joined
  · exact joined

theorem State.receiveEvent_withPortRx (s : State) (p : PortId) (rx : Receiver) (e : Event) :
    (s.withPortRx p rx).receiveEvent p e = (s.receiveEvent p e).withPortRx p rx := by
  unfold State.receiveEvent
  simp only [State.withPortRx_look]
  split_ifs
  · exact State.setPort_withPortRx s p rx { look s.ports p with received := (look s.ports p).received ++ [e] }
  · exact State.raisePort_withPortRx s p rx .overrun

theorem State.actOnVerdict_withPortRx (s : State) (p : PortId) (rx : Receiver) (v : Verdict) :
    (s.withPortRx p rx).actOnVerdict p v = (s.actOnVerdict p v).withPortRx p rx := by
  cases v with
  | framing => exact State.raisePort_withPortRx s p rx .framing
  | check => exact State.raisePort_withPortRx s p rx .check
  | unknownKind => exact State.raisePort_withPortRx s p rx .format
  | format => exact State.raisePort_withPortRx s p rx .format
  | valid bytes =>
    simp only [State.actOnVerdict]
    cases parseEvent bytes with
    | some e => exact State.receiveEvent_withPortRx s p rx e
    | none => rfl

theorem State.portVerdict_withPortRx (s : State) (p : PortId) (rx : Receiver) (v : Verdict) :
    (s.withPortRx p rx).portVerdict p v = (s.portVerdict p v).withPortRx p rx := by
  unfold State.portVerdict
  simp only [State.withPortRx_look]
  split_ifs
  · exact State.actOnVerdict_withPortRx s p rx v
  · rfl

theorem State.portVerdict?_withPortRx (s : State) (p : PortId) (rx : Receiver) (v : Option Verdict) :
    (s.withPortRx p rx).portVerdict? p v = (s.portVerdict? p v).withPortRx p rx := by
  cases v with
  | none => rfl
  | some v => exact State.portVerdict_withPortRx s p rx v

/-! ### A field line's symbols, one after another (R3, R4) -/

theorem State.foldl_portVerdict_toList (s : State) (p : PortId) (v : Option Verdict) :
    v.toList.foldl (fun s v => s.portVerdict p v) s = s.portVerdict? p v := by
  cases v <;> rfl

theorem State.fieldSymbol_eq (s : State) (p : PortId) (x : Symbol) :
    s.fieldSymbol p x =
      (s.portVerdict? p ((look s.ports p).rx.take .field x).2).withPortRx p ((look s.ports p).rx.take .field x).1 :=
  State.portVerdict?_withPortRx s p _ _

/-- A run of symbols on a field line: the first one with its verdict, and then the rest. -/
theorem State.fieldArrival_cons (s : State) (p : PortId) (x : Symbol) (xs : List Symbol) :
    s.fieldArrival p (x :: xs) = (s.fieldSymbol p x).fieldArrival p xs := by
  rw [State.fieldSymbol_eq]
  generalize hnow : (look s.ports p).rx.take .field x = now
  generalize hlater : Receiver.run .field now.1 xs = later
  calc s.fieldArrival p (x :: xs)
      = (now.2.toList ++ later.2).foldl (fun s v => s.portVerdict p v) (s.withPortRx p later.1) := by
        rw [State.fieldArrival, Receiver.run, hnow, hlater, State.withPortRx]
    _ = later.2.foldl (fun s v => s.portVerdict p v) ((s.portVerdict? p now.2).withPortRx p later.1) := by
        rw [List.foldl_append, State.foldl_portVerdict_toList, State.portVerdict?_withPortRx]
    _ = later.2.foldl (fun s v => s.portVerdict p v)
          (((s.portVerdict? p now.2).withPortRx p now.1).withPortRx p later.1) := by
        rw [State.withPortRx_withPortRx]
    _ = ((s.portVerdict? p now.2).withPortRx p now.1).fieldArrival p xs := by
        rw [State.fieldArrival, State.withPortRx_look, hlater, State.withPortRx, State.withPortRx_look]

theorem State.fieldSymbol_resetHeld (s : State) (p : PortId) (x : Symbol) : (s.fieldSymbol p x).resetHeld = s.resetHeld := by
  rw [State.fieldSymbol]
  generalize (look s.ports p).rx.take .field x = now
  cases now.2 with
  | none => rfl
  | some v => exact (portVerdict_touches _ p v).resetHeld (by decide)

/-! ### Acting on a verdict leaves the trunk receiver alone -/

/-- State with the trunk receiver replaced. -/
def State.withTrunkRx (s : State) (rx : Receiver) : State := s.setTrunk { s.trunk with rx := rx }

@[simp] theorem State.withTrunkRx_trunk (s : State) (rx : Receiver) :
    (s.withTrunkRx rx).trunk = { s.trunk with rx := rx } := rfl

@[simp] theorem State.withTrunkRx_management (s : State) (rx : Receiver) :
    (s.withTrunkRx rx).management = s.management := rfl

@[simp] theorem State.withTrunkRx_inServiceAt (s : State) (rx : Receiver) (l : LevelId) :
    (s.withTrunkRx rx).inServiceAt l = s.inServiceAt l := rfl

theorem State.raiseTrunk_withTrunkRx (s : State) (rx : Receiver) (c : TrunkCondition) :
    (s.withTrunkRx rx).raiseTrunk c = (s.raiseTrunk c).withTrunkRx rx := by
  unfold State.raiseTrunk
  rw [State.withTrunkRx_trunk]
  by_cases sticky : member s.trunk.conditions c.bit
  · rw [if_pos sticky, if_pos sticky]
  · rw [if_neg sticky, if_neg sticky]
    rfl

theorem State.raiseStray_withTrunkRx (s : State) (rx : Receiver) :
    (s.withTrunkRx rx).raiseStray = s.raiseStray.withTrunkRx rx :=
  State.raiseTrunk_withTrunkRx (s.setTrunk { s.trunk with strays := satInc s.trunk.strays }) rx .stray

theorem State.requestRelease_withTrunkRx (s : State) (rx : Receiver) (o : Requester) (q : ReleaseRequest) :
    (s.withTrunkRx rx).requestRelease o q = (s.requestRelease o q).withTrunkRx rx := by
  refine (State.requestRelease_outside s (s.withTrunkRx rx) o q).trans ?_
  rw [State.requestRelease_frame]
  rfl

theorem State.retire_withTrunkRx (s : State) (rx : Receiver) (l : LevelId) (r : ServiceRecord) (o : RetireOutcome) :
    (s.withTrunkRx rx).retire l r o = (s.retire l r o).withTrunkRx rx := by
  rw [State.retire_frame, State.retire_frame (s := s), State.requestRelease_withTrunkRx]
  rfl

theorem State.retireAt_withTrunkRx (s : State) (rx : Receiver) (l : Option LevelId) (o : RetireOutcome) :
    (s.withTrunkRx rx).retireAt l o = (s.retireAt l o).withTrunkRx rx := by
  cases l with
  | none => exact State.raiseStray_withTrunkRx s rx
  | some l =>
    simp only [State.retireAt, State.withTrunkRx_inServiceAt]
    cases s.inServiceAt l with
    | some r => exact State.retire_withTrunkRx s rx l r o
    | none => exact State.raiseStray_withTrunkRx s rx

theorem State.withOutcome_withTrunkRx (s : State) (rx : Receiver) (outcome : Byte) {take take' : RetireOutcome → State}
    (h : ∀ o, take' o = (take o).withTrunkRx rx) :
    (s.withTrunkRx rx).withOutcome outcome take' = (s.withOutcome outcome take).withTrunkRx rx := by
  unfold State.withOutcome
  cases completionOutcome outcome with
  | some o => exact h o
  | none => rfl

theorem State.refuse_withTrunkRx (s : State) (rx : Receiver) (tag op : Byte) :
    (s.withTrunkRx rx).refuse tag op = (s.refuse tag op).withTrunkRx rx := by
  unfold State.refuse
  rw [State.withTrunkRx_management]
  cases s.management.freeRefusal with
  | none => exact State.raiseTrunk_withTrunkRx s rx .mgmtDrop
  | some slot => rfl

theorem State.takeRequest_withTrunkRx (s : State) (rx : Receiver) (tag op : Byte) (operands : List Byte) :
    (s.withTrunkRx rx).takeRequest tag op operands = (s.takeRequest tag op operands).withTrunkRx rx := by
  unfold State.takeRequest
  rw [State.withTrunkRx_management]
  cases s.management.freeSlot with
  | some slot => rfl
  | none => exact State.refuse_withTrunkRx s rx tag op

theorem State.routeFrame_withTrunkRx (s : State) (rx : Receiver) (bytes : List Byte) :
    (s.withTrunkRx rx).routeFrame bytes = (s.routeFrame bytes).withTrunkRx rx := by
  unfold State.routeFrame
  split_ifs
  · exact State.withOutcome_withTrunkRx s rx _ fun o => State.retireAt_withTrunkRx s rx _ o
  · exact State.withOutcome_withTrunkRx s rx _ fun o => State.retireAt_withTrunkRx s rx _ o
  · rfl
  · rfl
  · exact State.takeRequest_withTrunkRx s rx _ _ _
  · rfl

theorem State.trunkVerdict_withTrunkRx (s : State) (rx : Receiver) (v : Verdict) :
    (s.withTrunkRx rx).trunkVerdict v = (s.trunkVerdict v).withTrunkRx rx := by
  cases v with
  | framing => exact State.raiseTrunk_withTrunkRx s rx .framing
  | check => exact State.raiseTrunk_withTrunkRx s rx .check
  | unknownKind => exact State.raiseTrunk_withTrunkRx s rx .unknownKind
  | format => exact State.raiseTrunk_withTrunkRx s rx .format
  | valid bytes => exact State.routeFrame_withTrunkRx s rx bytes

theorem State.trunkVerdict?_withTrunkRx (s : State) (rx : Receiver) (v : Option Verdict) :
    (s.withTrunkRx rx).trunkVerdict? v = (s.trunkVerdict? v).withTrunkRx rx := by
  cases v with
  | none => rfl
  | some v => exact State.trunkVerdict_withTrunkRx s rx v

/-! ### The trunk's symbols, one after another (R3, R4) -/

theorem State.foldl_trunkVerdict_toList (s : State) (v : Option Verdict) :
    v.toList.foldl State.trunkVerdict s = s.trunkVerdict? v := by
  cases v <;> rfl

theorem State.trunkSymbol_eq (s : State) (x : Symbol) :
    s.trunkSymbol x = (s.trunkVerdict? (s.trunk.rx.take .trunk x).2).withTrunkRx (s.trunk.rx.take .trunk x).1 :=
  State.trunkVerdict?_withTrunkRx s _ _

/-- A run of symbols on the trunk: the first one with its verdict, and then the rest. -/
theorem State.trunkArrival_cons (s : State) (x : Symbol) (xs : List Symbol) :
    s.trunkArrival (x :: xs) = (s.trunkSymbol x).trunkArrival xs := by
  rw [State.trunkSymbol_eq]
  generalize hnow : s.trunk.rx.take .trunk x = now
  generalize hlater : Receiver.run .trunk now.1 xs = later
  calc s.trunkArrival (x :: xs)
      = (now.2.toList ++ later.2).foldl State.trunkVerdict (s.withTrunkRx later.1) := by
        rw [State.trunkArrival, Receiver.run, hnow, hlater, State.withTrunkRx]
    _ = later.2.foldl State.trunkVerdict ((s.trunkVerdict? now.2).withTrunkRx later.1) := by
        rw [List.foldl_append, State.foldl_trunkVerdict_toList, State.trunkVerdict?_withTrunkRx]
    _ = ((s.trunkVerdict? now.2).withTrunkRx now.1).trunkArrival xs := by
        rw [State.trunkArrival, State.withTrunkRx_trunk, hlater]
        rfl

theorem State.trunkSymbol_resetHeld (s : State) (x : Symbol) : (s.trunkSymbol x).resetHeld = s.resetHeld := by
  rw [State.trunkSymbol]
  generalize s.trunk.rx.take .trunk x = now
  cases now.2 with
  | none => rfl
  | some v => exact (trunkVerdict_touches _ v).resetHeld (by decide)

/-! ### Commands that carry line symbols -/

theorem exec_badFrame_running {s : State} (running : s.Running) (p : PortId) (symbols : List Symbol) :
    exec (.badFrame p symbols) s = .next (s.fieldArrival p symbols) :=
  whenRunning_running running fun s => s.fieldArrival p symbols

theorem exec_badTrunkFrame_running {s : State} (running : s.Running) (symbols : List Symbol) :
    exec (.badTrunkFrame symbols) s = .next (s.trunkArrival symbols) :=
  whenRunning_running running fun s => s.trunkArrival symbols

theorem exec_badFrame_cons {s : State} (running : s.Running) (p : PortId) (x : Symbol) (xs : List Symbol) :
    exec (.badFrame p (x :: xs)) s = exec (.badFrame p xs) (s.fieldSymbol p x) := by
  have running' : (s.fieldSymbol p x).Running := (s.fieldSymbol_resetHeld p x).trans running
  rw [exec_badFrame_running running, exec_badFrame_running running', State.fieldArrival_cons]

theorem exec_badTrunkFrame_cons {s : State} (running : s.Running) (x : Symbol) (xs : List Symbol) :
    exec (.badTrunkFrame (x :: xs)) s = exec (.badTrunkFrame xs) (s.trunkSymbol x) := by
  have running' : (s.trunkSymbol x).Running := (s.trunkSymbol_resetHeld x).trans running
  rw [exec_badTrunkFrame_running running, exec_badTrunkFrame_running running', State.trunkArrival_cons]

/-- Settles O9: the table's cells compute, and a run of symbols is taken one symbol at a time because no verdict's effect meets
the receiver that handed it over. -/
theorem receiverFollowsItsTable : Obligations.ReceiverFollowsItsTable := by
  unfold Obligations.ReceiverFollowsItsTable
  refine ⟨fun _ _ => rfl, fun _ => rfl, fun k _ h => Receiver.take_hunt_of_ne_start k h,
    fun _ _ => ⟨rfl, rfl, rfl, rfl, rfl, rfl⟩, ⟨rfl, rfl⟩, fun k bytes b => ?nextByte, fun k bytes => ?stored,
    fun p _ x xs running => ⟨exec_badFrame_cons running p x xs, exec_badTrunkFrame_cons running x xs⟩⟩
  case nextByte => rw [gathered_append_byte, Receiver.take]
  case stored => rw [gathered, gathered_eq, storeLimit_eq_ite]

end Sys2Proof.Machine
end

section
/-!
The field ports as their conditions, queues and settings show them: what a port does with a verdict (R15), where a release request
goes (R19), and what READ-PORT and WRITE-PORT answer and change (R18, R23 to R25).
-/

namespace Sys2Proof.Machine

/-! ### A verdict handed to a port (R15) -/

theorem State.portVerdict_disabled {s : State} {p : PortId} (disabled : (look s.ports p).enabled = false) (v : Verdict) :
    s.portVerdict p v = s := by
  rw [State.portVerdict, disabled]
  exact if_neg Bool.false_ne_true

theorem State.portVerdict_enabled {s : State} {p : PortId} (enabled : (look s.ports p).enabled = true) (v : Verdict) :
    s.portVerdict p v = s.actOnVerdict p v := by
  rw [State.portVerdict, if_pos enabled]

theorem State.actOnVerdict_valid (s : State) (p : PortId) {bytes : List Byte} {e : Event} (parsed : parseEvent bytes = some e) :
    s.actOnVerdict p (.valid bytes) = s.receiveEvent p e := by
  simp only [State.actOnVerdict, parsed]

theorem State.receiveEvent_of_room {s : State} {p : PortId} (room : (look s.ports p).received.length < 4) (e : Event) :
    s.receiveEvent p e = s.setPort p { look s.ports p with received := (look s.ports p).received ++ [e] } :=
  if_pos room

theorem State.receiveEvent_of_full {s : State} {p : PortId} (full : 4 ≤ (look s.ports p).received.length) (e : Event) :
    s.receiveEvent p e = s.raisePort p .overrun :=
  if_neg (Nat.not_lt.mpr full)

/-- Settles O13: an enabled port acts by the verdict, and on a VALID frame by the room in its receive queue. -/
theorem portActsOnEachVerdict : Obligations.PortActsOnEachVerdict := by
  unfold Obligations.PortActsOnEachVerdict
  refine ⟨fun s p v disabled => State.portVerdict_disabled disabled v, fun s p enabled => ?bad,
    fun s p bytes e enabled parsed => ?valid⟩
  case bad =>
    have acts := State.portVerdict_enabled enabled
    exact ⟨acts .framing, acts .check, acts .unknownKind, acts .format⟩
  case valid =>
    have taken : s.portVerdict p (.valid bytes) = s.receiveEvent p e :=
      (State.portVerdict_enabled enabled _).trans (s.actOnVerdict_valid p parsed)
    exact ⟨fun room => taken.trans (State.receiveEvent_of_room room e),
      fun full => taken.trans (State.receiveEvent_of_full full e)⟩

/-! ### A release request at the port of its origin (R19) -/

theorem State.requestRelease_internal (s : State) (q : ReleaseRequest) : s.requestRelease 6 q = s := by
  rw [State.requestRelease, portOf_internal]

/-- What a release request does at the port it reaches. -/
theorem State.requestRelease_port (s : State) (p : PortId) (q : ReleaseRequest) :
    s.requestRelease (p.castLE (by decide)) q =
      if (look s.ports p).enabled = false then s
      else if (look s.ports p).releases.length < 8 then
        s.setPort p { look s.ports p with releases := (look s.ports p).releases ++ [q] }
      else s.raisePort p .releaseLost := by
  rw [State.requestRelease, portOf_castLE]
  rfl

/-- Settles O23: the origin names the port, and the port's setting and the room in its release queue decide. -/
theorem releaseRequestsAreRouted : Obligations.ReleaseRequestsAreRouted := by
  unfold Obligations.ReleaseRequestsAreRouted
  refine ⟨State.requestRelease_internal, fun s p q disabled => ?discarded, fun s p q enabled room => ?appended,
    fun s p q enabled full => ?lost⟩
  case discarded => rw [State.requestRelease_port, if_pos disabled]
  case appended =>
    rw [State.requestRelease_port, if_neg (by simp [enabled]), if_pos room]
    rfl
  case lost => rw [State.requestRelease_port, if_neg (by simp [enabled]), if_neg (Nat.not_lt.mpr full)]

/-! ### Operand bytes -/

theorem boundedOperand_of_val_eq {n : Nat} {i : Fin n} {b : Byte} (h : i.val = b.toNat) : boundedOperand n b = some i := by
  have inRange : b.toNat < n := h ▸ i.isLt
  rw [boundedOperand, dif_pos inRange]
  exact congrArg some (Fin.ext h.symm)

theorem boundedOperand_eq_none {n : Nat} {b : Byte} (h : n ≤ b.toNat) : boundedOperand n b = none :=
  dif_neg (Nat.not_lt.mpr h)

theorem byteOf_of_eq_toNat {k : Nat} {b : Byte} (h : k = b.toNat) : byteOf k = b := by
  rw [byteOf, h, BitVec.ofNat_toNat, BitVec.setWidth_eq]

theorem flagOperand_of_le {b : Byte} (h : b.toNat ≤ 1) : flagOperand b = some (decide (b = 1)) := by
  have h01 : b = 0 ∨ b = 1 := by bv_omega
  rcases h01 with rfl | rfl <;> rfl

theorem flagOperand_eq_none {b : Byte} (h : 1 < b.toNat) : flagOperand b = none := by
  have h0 : b ≠ 0 := by bv_omega
  have h1 : b ≠ 1 := by bv_omega
  rw [flagOperand, if_neg h0, if_neg h1]

/-! ### The execution of a head request whose length is right (R142, R144) -/

/-- An operation of a fixed operand length takes effect on the state with its request gone from the queue. -/
theorem whenRunning_executeOp {s : State} {q : QueuedRequest} {rest : List QueuedRequest} {op : Byte} {oplen : Nat}
    (running : s.Running) (head : s.Head q rest) (ho : q.op = op) (hl : q.operands.length = oplen)
    (effect : QueuedRequest → State → State) :
    (whenRunning s fun s => s.executeOp op oplen effect) =
      .next (effect q (s.setManagement { s.management with queue := rest })) := by
  rw [whenRunning_running running, State.executeOp_ok head ho hl]

/-- A head request answered without any other change. -/
theorem State.answer_of_head (s : State) (q : QueuedRequest) (rest : List QueuedRequest) (status : Status) (data : List Byte) :
    (s.setManagement { s.management with queue := rest }).answer q status data = s.answered q rest status data :=
  rfl

/-- A head request answered with one port changed. -/
theorem State.setPort_answer_of_head (s : State) (q : QueuedRequest) (rest : List QueuedRequest) (p : PortId) (x : FieldPort)
    (status : Status) (data : List Byte) :
    ((s.setManagement { s.management with queue := rest }).setPort p x).answer q status data =
      (s.setPort p x).answered q rest status data :=
  State.answer_of_head (s.setPort p x) q rest status data

/-! ### A port's state byte and its settings (R23 to R25) -/

theorem portStateCode_state (port : FieldPort) : portStateCode port.state = port.stateByte := by
  rw [FieldPort.state, FieldPort.stateByte]
  cases port.enabled with
  | false => rfl
  | true => cases port.rx <;> rfl

theorem FieldTransmitter.abort_eq_endedWith (tx : FieldTransmitter) : tx.abort = tx.endedWith .abort := by
  rw [FieldTransmitter.abort, FieldTransmitter.endedWith]
  cases tx.sending <;> rfl

theorem FieldPort.configure_enabled (port : FieldPort) (notices : Bool) :
    port.configure true notices = { port with enabled := true, noticeEnabled := notices } :=
  rfl

theorem FieldPort.configure_disabled {port : FieldPort} (disabled : port.enabled = false) (notices : Bool) :
    port.configure false notices = { port with noticeEnabled := notices } := by
  simp [FieldPort.configure, disabled]

theorem FieldPort.configure_disabling {port : FieldPort} (enabled : port.enabled = true) (notices : Bool) :
    port.configure false notices =
      { port with enabled := false, noticeEnabled := notices, received := [], releases := [], headMarked := false,
                  tx := port.tx.endedWith .abort } := by
  simp [FieldPort.configure, FieldPort.disable, FieldTransmitter.abort_eq_endedWith, enabled]

/-! ### READ-PORT (R18) -/

theorem portData_eq {p : PortId} {port : Byte} (hp : p.val = port.toNat) (x : FieldPort) :
    portData p x = [port, x.stateByte, if x.enabled then 1 else 0, if x.noticeEnabled then 1 else 0,
      BitVec.ofNat 8 x.received.length, BitVec.ofNat 8 x.releases.length, x.conditions.zeroExtend 8] := by
  rw [portData, byteOf_of_eq_toNat hp, portStateCode_state]
  rfl

section
variable {s : State} {q : QueuedRequest} {rest : List QueuedRequest} {port : Byte}

theorem exec_readPort_illegal (running : s.Running) (head : s.Head q rest) (ho : q.op = opReadPort) (operands : q.operands = [port])
    (outside : 5 < port.toNat) : exec .readPort s = .next (s.answered q rest .illegal []) := by
  have noPort : boundedOperand 6 (operand q.operands 0) = none := by
    rw [operands]
    exact boundedOperand_eq_none outside
  rw [exec, execReadPort, whenRunning_executeOp running head ho (by rw [operands]; rfl), noPort]
  rfl

theorem exec_readPort_ok (running : s.Running) (head : s.Head q rest) (ho : q.op = opReadPort) (operands : q.operands = [port])
    {p : PortId} (hp : p.val = port.toNat) :
    exec .readPort s =
      .next ((s.setPort p { look s.ports p with conditions := 0 }).answered q rest .ok (portData p (look s.ports p))) := by
  have thePort : boundedOperand 6 (operand q.operands 0) = some p := by
    rw [operands]
    exact boundedOperand_of_val_eq hp
  rw [exec, execReadPort, whenRunning_executeOp running head ho (by rw [operands]; rfl), thePort]
  exact congrArg Host.Outcome.next (State.setPort_answer_of_head s q rest p _ .ok _)

end

/-! ### WRITE-PORT (R23 to R25) -/

section
variable {s : State} {q : QueuedRequest} {rest : List QueuedRequest} {port enabled notices : Byte}

theorem exec_writePort_illegal (running : s.Running) (head : s.Head q rest) (ho : q.op = opWritePort)
    (operands : q.operands = [port, enabled, notices])
    (outside : 5 < port.toNat ∨ 1 < enabled.toNat ∨ 1 < notices.toNat) :
    exec .writePort s = .next (s.answered q rest .illegal []) := by
  have absent : boundedOperand 6 (operand q.operands 0) = none ∨ flagOperand (operand q.operands 1) = none ∨
      flagOperand (operand q.operands 2) = none := by
    rw [operands]
    exact outside.imp boundedOperand_eq_none (Or.imp flagOperand_eq_none flagOperand_eq_none)
  rw [exec, execWritePort, whenRunning_executeOp running head ho (by rw [operands]; rfl)]
  split
  · next h0 h1 h2 => simp [h0, h1, h2] at absent
  · rw [State.answer_of_head]

theorem exec_writePort_ok (running : s.Running) (head : s.Head q rest) (ho : q.op = opWritePort)
    (operands : q.operands = [port, enabled, notices]) {p : PortId} (hp : p.val = port.toNat)
    (he : enabled.toNat ≤ 1) (hn : notices.toNat ≤ 1) {y : FieldPort}
    (hy : (look s.ports p).configure (decide (enabled = 1)) (decide (notices = 1)) = y) :
    exec .writePort s = .next ((s.setPort p y).answered q rest .ok [port, y.stateByte]) := by
  subst hy
  have thePort : boundedOperand 6 (operand q.operands 0) = some p := by
    rw [operands]
    exact boundedOperand_of_val_eq hp
  have theEnable : flagOperand (operand q.operands 1) = some (decide (enabled = 1)) := by
    rw [operands]
    exact flagOperand_of_le he
  have theNotices : flagOperand (operand q.operands 2) = some (decide (notices = 1)) := by
    rw [operands]
    exact flagOperand_of_le hn
  rw [exec, execWritePort, whenRunning_executeOp running head ho (by rw [operands]; rfl), thePort, theEnable, theNotices]
  simp only [State.writePortOf, State.setManagement_ports]
  rw [State.setPort_answer_of_head, byteOf_of_eq_toNat hp, portStateCode_state]

end

/-- Settles O43: each operation's operands are in range or not, and a WRITE-PORT's `enabled` and the port's own setting give the
three ways of configuring it. -/
theorem portsAreReadAndConfigured : Obligations.PortsAreReadAndConfigured := by
  unfold Obligations.PortsAreReadAndConfigured
  refine ⟨fun s q rest port running head ho operands => ⟨exec_readPort_illegal running head ho operands, ?read⟩,
    fun s q rest port enabled notices running head ho operands =>
      ⟨exec_writePort_illegal running head ho operands, ?written⟩⟩
  case read =>
    rintro p x hp rfl
    rw [exec_readPort_ok running head ho operands hp, portData_eq hp]
  case written =>
    rintro p x y hp hn rfl (⟨rfl, rfl⟩ | ⟨rfl, disabled, rfl⟩ | ⟨rfl, wasEnabled, rfl⟩)
    · exact exec_writePort_ok running head ho operands hp (by decide) hn (FieldPort.configure_enabled _ _)
    · exact exec_writePort_ok running head ho operands hp (by decide) hn (FieldPort.configure_disabled disabled _)
    · exact exec_writePort_ok running head ho operands hp (by decide) hn (FieldPort.configure_disabling wasEnabled _)

end Sys2Proof.Machine
end

section
/-!
The classification table: when an entry matches an event (R33), which entry or record decides a lookup and what the decision
rests on (R34), and the hit that its decider counts (R38).
-/

namespace Sys2Proof.Machine

/-! ### Matching (R33) -/

/-- A legal TRACK entry leaves PULSE out of `conds` (R41), so a PULSE in `conds` finds another action. -/
theorem Definition.Legal.not_track_and_pulse {d : Definition} (legal : d.Legal) {c : Cond}
    (inConds : member d.conds (condBit c) = true) : (d.action.isTrack && c == .pulse) = false := by
  by_contra trackPulse
  obtain ⟨track, pulse⟩ : d.action.isTrack = true ∧ c = .pulse := by simpa using trackPulse
  obtain ⟨-, -, noPulse⟩ := legal
  rw [pulse, noPulse track] at inConds
  exact Bool.false_ne_true inConds

theorem Definition.Legal.matchesEvent_iff {d : Definition} (legal : d.Legal) (r : Requester) (e : Event) :
    d.matchesEvent r e = true ↔ member d.ports r = true ∧ e.node &&& d.nodeMask = d.nodeValue ∧
      e.code &&& d.codeMask = d.codeValue ∧ member d.conds (condBit e.cond) = true := by
  simp only [Definition.matchesEvent, Bool.and_eq_true, beq_iff_eq, and_assoc, Bool.not_eq_true']
  refine and_congr_right fun _ => and_congr_right fun _ => and_congr_right fun _ => ?_
  exact and_iff_left_of_imp legal.not_track_and_pulse

/-- Matching looks at no more of an event than its `node`, `code` and `cond`. -/
theorem Definition.matchesEvent_congr (d : Definition) (r : Requester) {e g : Event} (node : e.node = g.node)
    (code : e.code = g.code) (cond : e.cond = g.cond) : d.matchesEvent r e = d.matchesEvent r g := by
  rw [Definition.matchesEvent, node, code, cond, Definition.matchesEvent]

/-! ### What the entry at an index decides -/

section
variable {b : Bank} {r : Requester} {e : Event} {i : EntryId}

theorem Bank.decidedAt_of_match {x : Entry} (valid : look b.entries i = some x)
    (matched : x.definition.matchesEvent r e = true) :
    b.decidedAt r e i = some { decider := some i, action := x.definition.action } := by
  simp [Bank.decidedAt, valid, matched]

theorem Bank.decidedAt_eq_none (passed : ∀ y, look b.entries i = some y → y.definition.matchesEvent r e = false) :
    b.decidedAt r e i = none := by
  cases h : look b.entries i with
  | none => simp [Bank.decidedAt, h]
  | some y => simp [Bank.decidedAt, h, passed y h]

end

/-- The hits of an entry take no part in what it decides. -/
theorem Bank.decidedAt_congr {b c : Bank} (r : Requester) {e g : Event} {i : EntryId}
    (same : (look b.entries i).map Entry.definition = (look c.entries i).map Entry.definition)
    (matching : ∀ d : Definition, d.matchesEvent r e = d.matchesEvent r g) : b.decidedAt r e i = c.decidedAt r g i := by
  have byDefinition (b : Bank) (e : Event) : b.decidedAt r e i = ((look b.entries i).map Entry.definition).bind fun d =>
      if d.matchesEvent r e then some { decider := some i, action := d.action } else none := by
    rw [Option.bind_map]
    rfl
  simp only [byDefinition, same, matching]

/-! ### The decider (R34) -/

theorem Bank.lookup_eq_findSome? (b : Bank) (r : Requester) (e : Event) :
    b.lookup r e =
      (Fin.findSome? (b.decidedAt r e)).getD { decider := none, action := b.defaultRecord.entryAction } := by
  rw [Bank.lookup, Fin.findSome?_eq_findSome?_finRange]

theorem Bank.lookup_of_first_match {b : Bank} {r : Requester} {e : Event} {i : EntryId} {x : Entry}
    (valid : look b.entries i = some x) (matched : x.definition.matchesEvent r e = true)
    (first : ∀ j y, j < i → look b.entries j = some y → y.definition.matchesEvent r e = false) :
    b.lookup r e = { decider := some i, action := x.definition.action } := by
  have found : Fin.findSome? (b.decidedAt r e) = some { decider := some i, action := x.definition.action } :=
    Fin.findSome?_eq_some_iff.mpr ⟨i, Bank.decidedAt_of_match valid matched,
      fun j before => Bank.decidedAt_eq_none fun y => first j y before⟩
  rw [Bank.lookup_eq_findSome?, found, Option.getD_some]

theorem Bank.lookup_of_no_match {b : Bank} {r : Requester} {e : Event}
    (passed : ∀ j y, look b.entries j = some y → y.definition.matchesEvent r e = false) :
    b.lookup r e = { decider := none, action := b.defaultRecord.entryAction } := by
  have nothing : Fin.findSome? (b.decidedAt r e) = none :=
    Fin.findSome?_eq_none_iff.mpr fun j => Bank.decidedAt_eq_none (passed j)
  rw [Bank.lookup_eq_findSome?, nothing, Option.getD_none]

theorem Bank.lookup_congr {b c : Bank} {r : Requester} {e g : Event}
    (definitions : ∀ i, (look b.entries i).map Entry.definition = (look c.entries i).map Entry.definition)
    (defaults : b.defaultRecord.entryAction = c.defaultRecord.entryAction)
    (matching : ∀ d : Definition, d.matchesEvent r e = d.matchesEvent r g) : b.lookup r e = c.lookup r g := by
  have sameAt : b.decidedAt r e = c.decidedAt r g := funext fun i => Bank.decidedAt_congr r (definitions i) matching
  rw [Bank.lookup, Bank.lookup, sameAt, defaults]

theorem DefaultRecord.entryAction_congr {d d' : DefaultRecord} (action : d.action = d'.action) (level : d.level = d'.level) :
    d.entryAction = d'.entryAction := by
  rw [DefaultRecord.entryAction, action, level, DefaultRecord.entryAction]

/-! ### The hit (R38) -/

theorem satInc_half (x : Half) : satInc x = if x = 65535 then 65535 else x + 1 := by
  rw [satInc, show BitVec.allOnes 16 = 65535 from rfl]
  split_ifs with atMaximum
  · exact atMaximum
  · rfl

theorem Bank.countHit_entry {b : Bank} {i : EntryId} {x : Entry} (valid : look b.entries i = some x) :
    b.countHit (some i) = { b with entries := put b.entries i (some { x with
      hits := if x.hits = 65535 then 65535 else x.hits + 1 }) } := by
  rw [Bank.countHit, valid, Option.map_some, satInc_half]

theorem Bank.countHit_default (b : Bank) :
    b.countHit none = { b with defaultRecord := { b.defaultRecord with
      hits := if b.defaultRecord.hits = 65535 then 65535 else b.defaultRecord.hits + 1 } } := by
  rw [Bank.countHit, satInc_half]

/-- Settles O27: the model's test that keeps a PULSE from a TRACK entry never fails alone for a legal definition, the lookup is
the first index at which an entry decides, and an entry decides by its definition alone. -/
theorem lookupIsDecidedByTheFirstMatch : Obligations.LookupIsDecidedByTheFirstMatch := by
  unfold Obligations.LookupIsDecidedByTheFirstMatch
  refine ⟨⟨fun d r e legal => legal.matchesEvent_iff r e,
    fun b r e i x valid matched first => Bank.lookup_of_first_match valid matched first,
    fun b r e passed => Bank.lookup_of_no_match passed, fun b c r e g definitions action level node code cond => ?restsOn⟩,
    fun b i x valid => Bank.countHit_entry valid, Bank.countHit_default⟩
  case restsOn =>
    have defaults := DefaultRecord.entryAction_congr action level
    exact Bank.lookup_congr definitions defaults fun d => d.matchesEvent_congr r node code cond

end Sys2Proof.Machine
end

section
/-!
The Condition Tracker: what it does with a repeat and with a change (R63 to R67), and what READ-CONDITION and CLEAR-CONDITION answer
and change (R69, R70, R148).
-/

namespace Sys2Proof.Machine

/-! ### A repeat and a change (R63 to R67) -/

theorem satInc_byte (x : Byte) : satInc x = if x = 255 then 255 else x + 1 := by
  rw [satInc, show BitVec.allOnes 8 = 255 from rfl]
  split_ifs with atMaximum
  · exact atMaximum
  · rfl

theorem trackStateOf_eq {c : Cond} {new : TrackState}
    (named : c = .assert ∧ new = .asserted ∨ c = .clear ∧ new = .cleared) : trackStateOf c = new := by
  rcases named with ⟨rfl, rfl⟩ | ⟨rfl, rfl⟩
  · rfl
  · rfl

theorem ConditionSlot.absorb_eq (slot : ConditionSlot) :
    slot.absorb = { slot with absorbed := if slot.absorbed = 255 then 255 else slot.absorbed + 1 } := by
  rw [ConditionSlot.absorb, satInc_byte]

theorem ConditionSlot.change_eq (slot : ConditionSlot) (f : FlightEvent) :
    slot.change f = {
      state := trackStateOf f.event.cond, last := some (f.requester, f.event.node),
      changes := if slot.changes = 65535 then 65535 else slot.changes + 1, absorbed := 0 } := by
  rw [ConditionSlot.change, satInc_half]

/-- The request of a change says how many repeats the slot has absorbed since the change before (R65). -/
theorem FlightEvent.changeRequest_eq (f : FlightEvent) (l : LevelId) (slot : ConditionSlot) :
    f.changeRequest l slot = {
      kind := .posted, level := l, origin := f.requester, node := f.event.node, code := f.event.code, cond := f.event.cond,
      seq := f.event.seq, payload := f.event.payload,
      repeats := if slot.absorbed = 255 then 255 else slot.absorbed + 1, gen := f.generation, mayCoalesce := false } := by
  rw [FlightEvent.changeRequest, satInc_byte]
  rfl

theorem State.admission_conditions (s : State) (q : Record) : (s.admission q).1.conditions = s.conditions := by
  rw [State.admission_frame]

section
variable {s t : State} {f : FlightEvent} {l : LevelId} {i : SlotId} {o : ActionOutcome}

theorem State.track_of_repeat (same : (look s.conditions i).state = trackStateOf f.event.cond) :
    s.track f l i = (s.setCondition i (look s.conditions i).absorb, .absorbed) :=
  if_pos same

theorem State.track_of_change (differs : (look s.conditions i).state ≠ trackStateOf f.event.cond) :
    s.track f l i = s.trackChange f l i :=
  if_neg differs

/-- The slot takes a change whose record was placed (R66). -/
theorem State.trackChange_of_queued (admitted : s.admission (f.changeRequest l (look s.conditions i)) = (t, .queued)) :
    s.trackChange f l i = (t.setCondition i ((look s.conditions i).change f), .queued) := by
  rw [State.trackChange, admitted]
  exact if_pos rfl

/-- A change whose record was not placed leaves the slot as it was (R67). -/
theorem State.trackChange_of_not_queued (admitted : s.admission (f.changeRequest l (look s.conditions i)) = (t, o))
    (lost : o ≠ .queued) : s.trackChange f l i = (t, o) := by
  rw [State.trackChange, admitted]
  exact if_neg lost

end

/-- Settles O29: the slot's state against the one that `cond` names tells a repeat from a change, and the outcome of the change's
admission tells whether the slot takes it. -/
theorem trackerForwardsChangesAndAbsorbsRepeats : Obligations.TrackerForwardsChangesAndAbsorbsRepeats := by
  unfold Obligations.TrackerForwardsChangesAndAbsorbsRepeats
  rintro s f l i slot new rfl named
  obtain rfl := trackStateOf_eq named
  refine ⟨fun same => ?repeated, fun t o differs admitted => ?changed⟩
  case repeated =>
    rw [State.track_of_repeat same, ConditionSlot.absorb_eq]
    rfl
  case changed =>
    rw [← FlightEvent.changeRequest_eq] at admitted
    have unread : t.conditions = s.conditions := by
      rw [← State.admission_conditions s (f.changeRequest l (look s.conditions i)), admitted]
    rw [State.track_of_change differs]
    refine ⟨?placed, fun lost => ⟨State.trackChange_of_not_queued admitted lost, unread⟩⟩
    case placed =>
      rintro rfl
      rw [State.trackChange_of_queued admitted, ConditionSlot.change_eq]
      rfl

/-! ### READ-CONDITION (R69, R148) -/

theorem conditionData_of_absent {i : SlotId} {slot : Byte} (hi : i.val = slot.toNat) {x : ConditionSlot}
    (absent : x.last = none) :
    conditionData i x = [slot, trackStateCode x.state, 0, 0, 0] ++ numberBytes x.changes ++ [x.absorbed] := by
  rw [conditionData, absent, byteOf_of_eq_toNat hi]
  rfl

theorem conditionData_of_present {i : SlotId} {slot : Byte} (hi : i.val = slot.toNat) {x : ConditionSlot} {r : Requester}
    {node : Byte} (present : x.last = some (r, node)) :
    conditionData i x =
      [slot, trackStateCode x.state, 1, BitVec.ofNat 8 r, node] ++ numberBytes x.changes ++ [x.absorbed] := by
  rw [conditionData, present, byteOf_of_eq_toNat hi]
  rfl

theorem trackStateCode_eq {state : TrackState} {now : Byte}
    (coded : state = .unknown ∧ now = 0 ∨ state = .asserted ∧ now = 1 ∨ state = .cleared ∧ now = 2) :
    trackStateCode state = now := by
  rcases coded with ⟨rfl, rfl⟩ | ⟨rfl, rfl⟩ | ⟨rfl, rfl⟩
  · rfl
  · rfl
  · rfl

section
variable {s : State} {q : QueuedRequest} {rest : List QueuedRequest} {slot : Byte}

theorem exec_readCondition_illegal (running : s.Running) (head : s.Head q rest) (ho : q.op = opReadCondition)
    (operands : q.operands = [slot]) (outside : 31 < slot.toNat) :
    exec .readCondition s = .next (s.answered q rest .illegal []) := by
  have noSlot : boundedOperand 32 (operand q.operands 0) = none := by
    rw [operands]
    exact boundedOperand_eq_none outside
  rw [exec, execReadCondition, whenRunning_executeOp running head ho (by rw [operands]; rfl), noSlot]
  rfl

theorem exec_readCondition_ok (running : s.Running) (head : s.Head q rest) (ho : q.op = opReadCondition)
    (operands : q.operands = [slot]) {i : SlotId} (hi : i.val = slot.toNat) :
    exec .readCondition s = .next (s.answered q rest .ok (conditionData i (look s.conditions i))) := by
  have theSlot : boundedOperand 32 (operand q.operands 0) = some i := by
    rw [operands]
    exact boundedOperand_of_val_eq hi
  rw [exec, execReadCondition, whenRunning_executeOp running head ho (by rw [operands]; rfl), theSlot]
  rfl

/-! ### CLEAR-CONDITION (R70, R148) -/

theorem State.clearAllConditions_eq (s : State) :
    s.clearAllConditions = { s with conditions := tabulate fun _ => clearedSlot } := by
  rw [tabulate_const]
  rfl

/-- CLEAR-CONDITION on a head request of one operand: FFh is tested before the slots' range. -/
theorem exec_clearCondition_eq (running : s.Running) (head : s.Head q rest) (ho : q.op = opClearCondition)
    (operands : q.operands = [slot]) :
    exec .clearCondition s = .next
      (if slot = 0xFF then s.clearAllConditions.answered q rest .ok []
        else (boundedOperand 32 slot).elim (s.answered q rest .illegal [])
          fun i => (s.setCondition i clearedSlot).answered q rest .ok []) := by
  rw [exec, execClearCondition, whenRunning_executeOp running head ho (by rw [operands]; rfl), operands,
    show operand [slot] 0 = slot from rfl]
  cases boundedOperand 32 slot with
  | none => rfl
  | some i => rfl

end

/-- Settles O45: the operand is a slot's number or not, and for CLEAR-CONDITION FFh, which is no slot's number, names all. -/
theorem conditionSlotsAreReadAndCleared : Obligations.ConditionSlotsAreReadAndCleared := by
  unfold Obligations.ConditionSlotsAreReadAndCleared
  refine ⟨fun s q rest slot running head ho operands => ⟨exec_readCondition_illegal running head ho operands, ?read⟩,
    fun s q rest slot running head ho operands => ?clear⟩
  case read =>
    rintro i x now hi rfl coded
    rw [exec_readCondition_ok running head ho operands hi, ← trackStateCode_eq coded]
    exact ⟨fun absent => by rw [conditionData_of_absent hi absent],
      fun r node present => by rw [conditionData_of_present hi present]⟩
  case clear =>
    rw [exec_clearCondition_eq running head ho operands]
    refine ⟨fun outside notAll => ?illegal, fun all => ?all, fun i hi => ?one⟩
    case illegal => rw [if_neg notAll, boundedOperand_eq_none outside, Option.elim_none]
    case all => rw [if_pos all, State.clearAllConditions_eq]
    case one =>
      have notAll : slot ≠ 0xFF := by
        rintro rfl
        exact absurd hi (Nat.ne_of_lt (i.isLt.trans (by decide)))
      rw [if_neg notAll, boundedOperand_of_val_eq hi, Option.elim_some]

end Sys2Proof.Machine
end

section
/-!
READ-ENTRY (R74, R75, R146): its three operands, what the reply carries, and what the clear option does to the Table Store.
-/

namespace Sys2Proof.Machine

/-! ### The operands `bank` and `item` -/

theorem bankCode_eq_letter (id : BankId) : bankCode id = letter id := by
  cases id with
  | a => rfl
  | b => rfl

theorem bankOperand_letter (id : BankId) : bankOperand (letter id) = some id := by
  cases id with
  | a => rfl
  | b => rfl

theorem bankOperand_eq_none {b : Byte} (h : 1 < b.toNat) : bankOperand b = none := by
  have h0 : b ≠ 0 := by bv_omega
  have h1 : b ≠ 1 := by bv_omega
  rw [bankOperand, if_neg h0, if_neg h1]

theorem itemOperand_defaultRecord : itemOperand 64 = some .defaultRecord :=
  rfl

theorem itemOperand_of_val_eq {i : EntryId} {b : Byte} (h : i.val = b.toNat) : itemOperand b = some (.entry i) := by
  have notDefault : b ≠ 64 := by
    rintro rfl
    exact absurd h (Nat.ne_of_lt i.isLt)
  rw [itemOperand, if_neg notDefault, boundedOperand_of_val_eq h, Option.map_some]

theorem itemOperand_eq_none {b : Byte} (h : 64 < b.toNat) : itemOperand b = none := by
  have notDefault : b ≠ 64 := by
    rintro rfl
    exact absurd h (Nat.lt_irrefl 64)
  rw [itemOperand, if_neg notDefault, boundedOperand_eq_none h.le, Option.map_none]

/-! ### The reply's data and the clear option (R74, R75) -/

theorem TableStore.readData_eq (t : TableStore) (id : BankId) (name : ItemName) :
    t.readData id name =
      [letter id, if id = t.active then 1 else 2, t.generation, itemCode name] ++ (t.bank id).itemBytes name := by
  rw [TableStore.readData, bankCode_eq_letter, TableStore.roleCode]

theorem Bank.clearHits_entry (b : Bank) (i : EntryId) :
    b.clearHits (.entry i) = { b with entries := put b.entries i ((look b.entries i).map uncounted) } :=
  rfl

theorem Bank.clearHits_defaultRecord (b : Bank) :
    b.clearHits .defaultRecord = { b with defaultRecord := { b.defaultRecord with hits := 0 } } :=
  rfl

theorem TableStore.readClear_decide (t : TableStore) (id : BankId) (name : ItemName) (clear : Byte) :
    t.readClear id name (decide (clear = 1)) =
      if clear = 1 then t.setBank id ((t.bank id).clearHits name) else t := by
  rw [TableStore.readClear]
  exact ite_congr decide_eq_true_eq (fun _ => rfl) (fun _ => rfl)

/-- A head request answered with the Table Store changed. -/
theorem State.setTable_answer_of_head (s : State) (q : QueuedRequest) (rest : List QueuedRequest) (t : TableStore)
    (status : Status) (data : List Byte) :
    ((s.setManagement { s.management with queue := rest }).setTable t).answer q status data =
      ({ s with table := t } : State).answered q rest status data :=
  State.answer_of_head (s.setTable t) q rest status data

/-! ### READ-ENTRY -/

section
variable {s : State} {q : QueuedRequest} {rest : List QueuedRequest} {bank item clear : Byte}

theorem exec_readEntry_illegal (running : s.Running) (head : s.Head q rest) (ho : q.op = opReadEntry)
    (operands : q.operands = [bank, item, clear]) (outside : 1 < bank.toNat ∨ 64 < item.toNat ∨ 1 < clear.toNat) :
    exec .readEntry s = .next (s.answered q rest .illegal []) := by
  have absent : bankOperand (operand q.operands 0) = none ∨ itemOperand (operand q.operands 1) = none ∨
      flagOperand (operand q.operands 2) = none := by
    rw [operands]
    exact outside.imp bankOperand_eq_none (Or.imp itemOperand_eq_none flagOperand_eq_none)
  rw [exec, execReadEntry, whenRunning_executeOp running head ho (by rw [operands]; rfl)]
  split
  · next theBank theItem theClear => simp [theBank, theItem, theClear] at absent
  · rw [State.answer_of_head]

/-- Legal operands are carried out for either sort of item, whatever the bank-operation state; the data are read before the
clear option acts. -/
theorem exec_readEntry_ok (running : s.Running) (head : s.Head q rest) (ho : q.op = opReadEntry)
    (operands : q.operands = [bank, item, clear]) {id : BankId} (hb : bank = letter id) {name : ItemName}
    (hi : itemOperand item = some name) (hc : clear.toNat ≤ 1) :
    exec .readEntry s = .next
      (({ s with table := if clear = 1 then s.table.setBank id ((s.table.bank id).clearHits name) else s.table } : State).answered
        q rest .ok ([bank, if id = s.table.active then 1 else 2, s.table.generation, itemCode name] ++
          (s.table.bank id).itemBytes name)) := by
  have theBank : bankOperand (operand q.operands 0) = some id := by
    rw [operands, hb]
    exact bankOperand_letter id
  have theItem : itemOperand (operand q.operands 1) = some name := by
    rw [operands]
    exact hi
  have theClear : flagOperand (operand q.operands 2) = some (decide (clear = 1)) := by
    rw [operands]
    exact flagOperand_of_le hc
  rw [exec, execReadEntry, whenRunning_executeOp running head ho (by rw [operands]; rfl), theBank, theItem, theClear]
  simp only [State.readItem, State.setManagement_table]
  rw [State.setTable_answer_of_head, TableStore.readClear_decide, TableStore.readData_eq, hb]

end

/-- Settles O36: the operands are outside their ranges, or name an entry, or name the default record; both sorts of item
follow from `exec_readEntry_ok`. -/
theorem readEntryReportsOneItem : Obligations.ReadEntryReportsOneItem := by
  unfold Obligations.ReadEntryReportsOneItem
  intro s q rest bank item clear running head ho operands
  refine ⟨exec_readEntry_illegal running head ho operands, ?entry, ?defaultRecord⟩
  case entry =>
    rintro id i t hb hi hc rfl
    rw [exec_readEntry_ok running head ho operands hb (itemOperand_of_val_eq hi) hc, Bank.clearHits_entry, itemCode,
      byteOf_of_eq_toNat hi, Bank.itemBytes]
  case defaultRecord =>
    rintro id t hb rfl hc rfl
    rw [exec_readEntry_ok running head ho operands hb itemOperand_defaultRecord hc, Bank.clearHits_defaultRecord, itemCode,
      Bank.itemBytes]

end Sys2Proof.Machine
end

section
/-!
The levels and the pool as the supervisor meets them: READ-LEVEL, WRITE-LEVEL and READ-POOL (R98 to R100, R147), and what
FLUSH-LEVEL does to a level, its record in service and the ports (R94, R97, R147).
-/

namespace Sys2Proof.Machine

/-! ### A head request answered with the Level Unit changed (R142) -/

theorem State.setLevel_answer_of_head (s : State) (q : QueuedRequest) (rest : List QueuedRequest) (l : LevelId) (x : Level)
    (status : Status) (data : List Byte) :
    ((s.setManagement { s.management with queue := rest }).setLevel l x).answer q status data =
      (s.setLevel l x).answered q rest status data :=
  State.answer_of_head (s.setLevel l x) q rest status data

theorem State.setLevelUnit_answer_of_head (s : State) (q : QueuedRequest) (rest : List QueuedRequest) (u : LevelUnit)
    (status : Status) (data : List Byte) :
    ((s.setManagement { s.management with queue := rest }).setLevelUnit u).answer q status data =
      (s.setLevelUnit u).answered q rest status data :=
  State.answer_of_head (s.setLevelUnit u) q rest status data

/-! ### Codes of a level's settings and of the record in service (sections 10.5.1 and 10.5.2) -/

theorem policyCode_eq_ite (x : Policy) : policyCode x = if x = .dropNew then 1 else 2 := by
  cases x with
  | dropNew => rfl
  | dropOld => rfl

theorem policyOperand_of_code {b : Byte} (h : b = 1 ∨ b = 2) :
    policyOperand b = some (if b = 1 then .dropNew else .dropOld) := by
  rcases h with rfl | rfl
  · rfl
  · rfl

theorem policyOperand_eq_none {b : Byte} (h : b ≠ 1 ∧ b ≠ 2) : policyOperand b = none := by
  obtain ⟨notNew, notOld⟩ := h
  rw [policyOperand, if_neg notNew, if_neg notOld]

theorem subStateCode_eq_byte (x : SubState) : subStateCode x = x.byte := by
  cases x with
  | dispatching => rfl
  | awaiting timer => rfl
  | resendWait => rfl
  | resending => rfl

theorem serviceBytes_eq (r : Option ServiceRecord) :
    serviceBytes r = [(r.map ServiceRecord.ticket).getD 0, (r.map fun r => r.phase.byte).getD 0] := by
  cases r with
  | none => rfl
  | some r => rw [serviceBytes, subStateCode_eq_byte, Option.map_some, Option.map_some, Option.getD_some, Option.getD_some]

/-! ### READ-LEVEL (R99) -/

theorem levelData_eq {l : LevelId} {level : Byte} (hl : l.val = level.toNat) (v : Level) (r : Option ServiceRecord) :
    levelData l v r =
      [level, v.settings.limit, if v.settings.policy = .dropNew then 1 else 2, if v.settings.coalesce then 1 else 0,
        v.settings.timeout, v.settings.retries, if v.masked then 1 else 0, BitVec.ofNat 8 v.queue.length] ++
        numberBytes v.counts.dispatched ++ numberBytes v.counts.done ++ numberBytes v.counts.rejected ++
        numberBytes v.counts.lapsed ++ numberBytes v.counts.dropped ++ numberBytes v.counts.flushed ++
        numberBytes v.counts.highWater ++
        [(r.map ServiceRecord.ticket).getD 0, (r.map fun r => r.phase.byte).getD 0] := by
  rw [levelData, byteOf_of_eq_toNat hl, policyCode_eq_ite, serviceBytes_eq]
  rfl

/-- The clear option as an update of the level's counts, whichever it is. -/
theorem State.clearCounts_eq_setLevel (s : State) (l : LevelId) (clear : Byte) :
    (if clear = 1 then s.setLevel l (s.levelAt l).clearCounts else s) =
      s.setLevel l { s.levelAt l with counts := if clear = 1
        then { dispatched := 0, done := 0, rejected := 0, lapsed := 0, dropped := 0, flushed := 0,
               highWater := BitVec.ofNat 16 (s.levelAt l).queue.length }
        else (s.levelAt l).counts } := by
  by_cases yes : clear = 1
  · rw [if_pos yes, if_pos yes]
    rfl
  · rw [if_neg yes, if_neg yes]
    exact (State.setLevel_self s l).symm

section
variable {s : State} {q : QueuedRequest} {rest : List QueuedRequest} {level clear : Byte}

theorem exec_readLevel_illegal (running : s.Running) (head : s.Head q rest) (ho : q.op = opReadLevel)
    (operands : q.operands = [level, clear]) (outside : 15 < level.toNat ∨ 1 < clear.toNat) :
    exec .readLevel s = .next (s.answered q rest .illegal []) := by
  have absent : boundedOperand 16 (operand q.operands 0) = none ∨ flagOperand (operand q.operands 1) = none := by
    rw [operands]
    exact outside.imp boundedOperand_eq_none flagOperand_eq_none
  rw [exec, execReadLevel, whenRunning_executeOp running head ho (by rw [operands]; rfl)]
  split
  · next theLevel theClear => simp [theLevel, theClear] at absent
  · rw [State.answer_of_head]

/-- The data are read before the clear option acts (R99). -/
theorem exec_readLevel_ok (running : s.Running) (head : s.Head q rest) (ho : q.op = opReadLevel)
    (operands : q.operands = [level, clear]) {l : LevelId} (hl : l.val = level.toNat) (hc : clear.toNat ≤ 1) :
    exec .readLevel s = .next ((if clear = 1 then s.setLevel l (s.levelAt l).clearCounts else s).answered q rest .ok
      (levelData l (s.levelAt l) (s.inServiceAt l))) := by
  have theLevel : boundedOperand 16 (operand q.operands 0) = some l := by
    rw [operands]
    exact boundedOperand_of_val_eq hl
  have theClear : flagOperand (operand q.operands 1) = some (decide (clear = 1)) := by
    rw [operands]
    exact flagOperand_of_le hc
  rw [exec, execReadLevel, whenRunning_executeOp running head ho (by rw [operands]; rfl), theLevel, theClear]
  simp only [State.readLevelOf, State.setManagement_levelAt, State.setManagement_inServiceAt]
  by_cases yes : clear = 1
  · rw [if_pos (decide_eq_true yes), if_pos yes, State.setLevel_answer_of_head]
  · rw [if_neg (mt of_decide_eq_true yes), if_neg yes, State.answer_of_head]

end

/-! ### WRITE-LEVEL (R98) -/

section
variable {level limit policy coalesce timeout retries : Byte}

theorem settingsOperand_of_legal (nonzero : limit ≠ 0) (hlimit : limit.toNat ≤ 32) (hpolicy : policy = 1 ∨ policy = 2)
    (hcoalesce : coalesce.toNat ≤ 1) (hretries : retries.toNat ≤ 7) :
    settingsOperand [level, limit, policy, coalesce, timeout, retries] = some {
      limit := limit, policy := if policy = 1 then .dropNew else .dropOld, coalesce := decide (coalesce = 1),
      timeout := timeout, retries := retries } := by
  have inRange : ¬(limit = 0 ∨ 32 < limit.toNat ∨ 7 < retries.toNat) := by
    rintro (zero | large | many)
    · exact nonzero zero
    · exact Nat.not_lt.mpr hlimit large
    · exact Nat.not_lt.mpr hretries many
  refine (if_neg inRange).trans ?_
  show (policyOperand policy).bind _ = _
  rw [policyOperand_of_code hpolicy, Option.bind_some]
  show (flagOperand coalesce).map _ = _
  rw [flagOperand_of_le hcoalesce]
  rfl

theorem settingsOperand_eq_none
    (outside : limit = 0 ∨ 32 < limit.toNat ∨ (policy ≠ 1 ∧ policy ≠ 2) ∨ 1 < coalesce.toNat ∨ 7 < retries.toNat) :
    settingsOperand [level, limit, policy, coalesce, timeout, retries] = none := by
  by_cases numbers : limit = 0 ∨ 32 < limit.toNat ∨ 7 < retries.toNat
  · exact if_pos numbers
  · have codes : (policy ≠ 1 ∧ policy ≠ 2) ∨ 1 < coalesce.toNat := by tauto
    refine (if_neg numbers).trans ?_
    show ((policyOperand policy).bind fun _ => (flagOperand coalesce).map _) = _
    rcases codes with noPolicy | noFlag
    · rw [policyOperand_eq_none noPolicy, Option.bind_none]
    · rw [flagOperand_eq_none noFlag]
      cases policyOperand policy <;> rfl

end

section
variable {s : State} {q : QueuedRequest} {rest : List QueuedRequest}

theorem exec_writeLevel_illegal (running : s.Running) (head : s.Head q rest) (ho : q.op = opWriteLevel)
    (length : q.operands.length = 6)
    (absent : boundedOperand 16 (operand q.operands 0) = none ∨ settingsOperand q.operands = none) :
    exec .writeLevel s = .next (s.answered q rest .illegal []) := by
  rw [exec, execWriteLevel, whenRunning_executeOp running head ho length]
  split
  · next theLevel theSettings => simp [theLevel, theSettings] at absent
  · rw [State.answer_of_head]

/-- Legal operands are refused only for a limit below the queue length. -/
theorem exec_writeLevel_legal (running : s.Running) (head : s.Head q rest) (ho : q.op = opWriteLevel)
    (length : q.operands.length = 6) {l : LevelId} {settings : LevelSettings}
    (theLevel : boundedOperand 16 (operand q.operands 0) = some l) (theSettings : settingsOperand q.operands = some settings) :
    exec .writeLevel s = .next
      (if settings.limit.toNat < (s.levelAt l).queue.length then s.answered q rest .conflict []
        else (s.setLevel l { s.levelAt l with settings := settings }).answered q rest .ok []) := by
  rw [exec, execWriteLevel, whenRunning_executeOp running head ho length, theLevel, theSettings]
  simp only [State.writeLevelOf, State.setManagement_levelAt]
  rw [State.answer_of_head, State.setLevel_answer_of_head]
  rfl

end

/-! ### READ-POOL (R100) -/

theorem exec_readPool_ok {s : State} {q : QueuedRequest} {rest : List QueuedRequest} (running : s.Running)
    (head : s.Head q rest) (ho : q.op = opReadPool) (operands : q.operands = []) :
    exec .readPool s = .next ((s.setLevelUnit { s.levelUnit with
      lowWater := BitVec.ofNat 8 s.freeRecords, refusals := 0 }).answered q rest .ok s.poolData) := by
  rw [exec, execReadPool, whenRunning_executeOp running head ho (by rw [operands]; rfl)]
  exact congrArg Host.Outcome.next (State.setLevelUnit_answer_of_head s q rest _ .ok _)

/-- Settles O40: each operation's operands are in range or not, and a legal WRITE-LEVEL's limit is below the queue length or
not. -/
theorem levelsAndPoolAreReadAndWritten : Obligations.LevelsAndPoolAreReadAndWritten := by
  unfold Obligations.LevelsAndPoolAreReadAndWritten
  refine ⟨fun s q rest level clear running head ho operands =>
      ⟨exec_readLevel_illegal running head ho operands, ?read⟩,
    fun s q rest level limit policy coalesce timeout retries running head ho operands => ⟨fun outside => ?illegal, ?written⟩,
    fun s q rest running head ho operands => ⟨exec_readPool_ok running head ho operands, rfl⟩⟩
  case read =>
    rintro l v c hl hc rfl rfl
    rw [exec_readLevel_ok running head ho operands hl hc, State.clearCounts_eq_setLevel, levelData_eq hl]
  case illegal =>
    refine exec_writeLevel_illegal running head ho (by rw [operands]; rfl) ?_
    rw [operands]
    exact outside.imp boundedOperand_eq_none settingsOperand_eq_none
  case written =>
    intro l hl nonzero hlimit hpolicy hcoalesce hretries
    have theLevel : boundedOperand 16 (operand q.operands 0) = some l := by
      rw [operands]
      exact boundedOperand_of_val_eq hl
    have theSettings := settingsOperand_of_legal (level := level) (timeout := timeout) nonzero hlimit hpolicy hcoalesce hretries
    rw [← operands] at theSettings
    rw [exec_writeLevel_legal running head ho (by rw [operands]; rfl) theLevel theSettings]
    exact ⟨fun below => by rw [if_pos below], fun room => by rw [if_neg (Nat.not_lt.mpr room)]⟩

/-! ### A level emptied (R94, R97) -/

/-- `k` rises of a count that stops at its maximum, as one number. -/
theorem satAdd_eq_min {n : Nat} (x : BitVec n) (k : Nat) :
    satAdd x k = BitVec.ofNat n (min (2 ^ n - 1) (x.toNat + k)) := by
  rw [satAdd]
  split_ifs with below
  · rw [Nat.min_eq_right (by omega), BitVec.ofNat_add, BitVec.ofNat_toNat, BitVec.setWidth_eq]
  · rw [Nat.min_eq_left (by omega)]
    exact BitVec.eq_of_toNat_eq (by simp)

theorem State.emptyQueue_eq (s : State) (l : LevelId) :
    s.emptyQueue l = s.setLevel l { s.levelAt l with
      queue := []
      counts := { (s.levelAt l).counts with
        flushed := BitVec.ofNat 16 (min 65535 ((s.levelAt l).counts.flushed.toNat + (s.levelAt l).queue.length)) } } := by
  rw [State.emptyQueue, satAdd_eq_min]
  rfl

/-- A posted record causes no RELEASE (R94), so the held ones alone tell what is requested. -/
theorem State.releaseFlushed_eq_foldl_held (s : State) (records : List Record) :
    s.releaseFlushed records = (records.filter (·.kind == .held)).foldl
      (fun (t : State) r =>
        t.requestRelease r.origin { node := r.node, code := r.code, seq := r.seq, outcome := .flushed }) s := by
  induction records generalizing s with
  | nil => rfl
  | cons r rs ih =>
    refine (ih (s.releaseIfHeld r .flushed)).trans ?_
    cases hk : r.kind with
    | posted => rw [State.releaseIfHeld_posted hk, List.filter_cons_of_neg (by simp [hk])]
    | held =>
      rw [State.releaseIfHeld_held hk, List.filter_cons_of_pos (by simp [hk])]
      rfl

theorem State.flushService_of_none {s : State} {l : LevelId} (h : s.inServiceAt l = none) : s.flushService l = s := by
  rw [State.flushService, h]

theorem State.flushService_of_some {s : State} {l : LevelId} {r : ServiceRecord} (h : s.inServiceAt l = some r) :
    s.flushService l = s.retire l r .flushed := by
  rw [State.flushService, h]

theorem State.retire_levelAt (s : State) (l : LevelId) (r : ServiceRecord) (o : RetireOutcome) :
    (s.retire l r o).levelAt l = { s.levelAt l with counts := (s.levelAt l).counts.countRetire o } := by
  rw [State.retire_frame]
  exact look_put_self _ _ _

/-- The retire counts, but the pending records stay for the queue's own emptying. -/
theorem State.flushService_queue (s : State) (l : LevelId) :
    ((s.flushService l).levelAt l).queue = (s.levelAt l).queue := by
  cases h : s.inServiceAt l with
  | none => rw [State.flushService_of_none h]
  | some r => rw [State.flushService_of_some h, State.retire_levelAt]

/-! ### A flush leaves the Management Unit alone -/

theorem State.releaseIfHeld_setManagement (s : State) (m : Management) (r : Record) (o : ReleaseOutcome) :
    (s.setManagement m).releaseIfHeld r o = (s.releaseIfHeld r o).setManagement m := by
  cases hk : r.kind with
  | posted => rw [State.releaseIfHeld_posted hk, State.releaseIfHeld_posted hk]
  | held => rw [State.releaseIfHeld_held hk, State.releaseIfHeld_held hk, State.requestRelease_setManagement]

theorem State.releaseFlushed_setManagement (s : State) (m : Management) (records : List Record) :
    (s.setManagement m).releaseFlushed records = (s.releaseFlushed records).setManagement m := by
  induction records generalizing s with
  | nil => rfl
  | cons r rs ih =>
    calc (s.setManagement m).releaseFlushed (r :: rs)
        = ((s.releaseIfHeld r .flushed).setManagement m).releaseFlushed rs :=
          congrArg (State.releaseFlushed · rs) (State.releaseIfHeld_setManagement s m r .flushed)
      _ = (s.releaseFlushed (r :: rs)).setManagement m := ih _

theorem State.flushService_setManagement (s : State) (m : Management) (l : LevelId) :
    (s.setManagement m).flushService l = (s.flushService l).setManagement m := by
  cases h : s.inServiceAt l with
  | none => rw [State.flushService_of_none h, State.flushService_of_none ((s.setManagement_inServiceAt m l).trans h)]
  | some r =>
    rw [State.flushService_of_some h, State.flushService_of_some ((s.setManagement_inServiceAt m l).trans h),
      State.retire_setManagement]

theorem State.flush_setManagement (s : State) (m : Management) (l : LevelId) :
    (s.setManagement m).flush l = (s.flush l).setManagement m := by
  rw [State.flush, State.flushService_setManagement]
  exact State.releaseFlushed_setManagement ((s.flushService l).emptyQueue l) m (s.levelAt l).queue

/-! ### FLUSH-LEVEL (R97) -/

section
variable {s : State} {q : QueuedRequest} {rest : List QueuedRequest} {level : Byte}

theorem exec_flushLevel_illegal (running : s.Running) (head : s.Head q rest) (ho : q.op = opFlushLevel)
    (operands : q.operands = [level]) (outside : 15 < level.toNat) :
    exec .flushLevel s = .next (s.answered q rest .illegal []) := by
  have noLevel : boundedOperand 16 (operand q.operands 0) = none := by
    rw [operands]
    exact boundedOperand_eq_none outside
  rw [exec, execFlushLevel, whenRunning_executeOp running head ho (by rw [operands]; rfl), noLevel]
  rfl

theorem exec_flushLevel_ok (running : s.Running) (head : s.Head q rest) (ho : q.op = opFlushLevel)
    (operands : q.operands = [level]) {l : LevelId} (hl : l.val = level.toNat) :
    exec .flushLevel s = .next ((s.flush l).answered q rest .ok
      [BitVec.ofNat 8 (s.levelAt l).queue.length, flagByte (s.inServiceAt l).isSome]) := by
  have theLevel : boundedOperand 16 (operand q.operands 0) = some l := by
    rw [operands]
    exact boundedOperand_of_val_eq hl
  have untouched : (s.flush l).management = s.management := (flush_touches s l).management (by decide)
  rw [exec, execFlushLevel, whenRunning_executeOp running head ho (by rw [operands]; rfl), theLevel]
  simp only [State.flush_setManagement, State.setManagement_levelAt, State.setManagement_inServiceAt]
  rw [← untouched, State.answer_of_head, byteOf]

end

/-- Settles O42: a record in service is retired first or there is none, and of the pending records, from the head to the tail, the
held ones alone request a RELEASE. -/
theorem flushEmptiesTheLevel : Obligations.FlushEmptiesTheLevel := by
  unfold Obligations.FlushEmptiesTheLevel
  refine fun s q rest level running head ho operands => ⟨exec_flushLevel_illegal running head ho operands, ?flushed⟩
  intro l base retired hl service
  have retiredFirst : s.flushService l = base ∧ flagByte (s.inServiceAt l).isSome = retired := by
    rcases service with ⟨noRecord, rfl, rfl⟩ | ⟨r, inService, rfl, rfl⟩
    · exact ⟨State.flushService_of_none noRecord, by rw [noRecord]; rfl⟩
    · exact ⟨State.flushService_of_some inService, by rw [inService]; rfl⟩
  obtain ⟨hbase, hretired⟩ := retiredFirst
  have pending : (base.levelAt l).queue = (s.levelAt l).queue := hbase ▸ s.flushService_queue l
  rw [exec_flushLevel_ok running head ho operands hl, State.flush, hbase, hretired, State.releaseFlushed_eq_foldl_held,
    State.emptyQueue_eq, pending]

end Sys2Proof.Machine
end

section
/-!
Completions as the Service Unit takes them from a receiver in HUNT: the frame reaches it with its fields (R117, R118), and a
completion that finds no record in service is counted and reported alone (R119).
-/

namespace Sys2Proof.Machine

/-! ### A whole frame taken from HUNT (R3, R125) -/

/-- A receiver in HUNT takes a whole frame and is in HUNT again, so that the state meets the frame's verdict and no other
change. -/
theorem State.supervisorFrame_of_hunt {s : State} (hunt : s.trunk.rx = .hunt) (body : List Byte) :
    s.supervisorFrame body = s.trunkVerdict (frameVerdict .trunk (gathered .trunk (closeFrame body))) := by
  have taken : s.trunk.rx.run .trunk (lineSymbols (closeFrame body)) =
      (s.trunk.rx, [frameVerdict .trunk (gathered .trunk (closeFrame body))]) := by
    rw [hunt]
    exact Receiver.run_frame .trunk (closeFrame body)
  rw [State.supervisorFrame, State.trunkArrival, taken]
  rfl

/-! ### COMPLETE and COMPLETE-TOP reach the Service Unit (R117, R118) -/

theorem State.routeFrame_complete (s : State) (ticket outcome : Byte) :
    s.routeFrame (closeFrame (completeBody ticket outcome)) = s.withOutcome outcome (s.takeComplete ticket) :=
  rfl

theorem State.routeFrame_completeTop (s : State) (outcome : Byte) :
    s.routeFrame (closeFrame (completeTopBody outcome)) = s.withOutcome outcome s.takeCompleteTop :=
  rfl

/-- A legal outcome leaves the choice of the record alone to say what the completion does. -/
theorem State.withOutcome_of_const {s t : State} {outcome : Byte} (legal : outcome = 1 ∨ outcome = 2)
    {take : RetireOutcome → State} (const : ∀ o, take o = t) : s.withOutcome outcome take = t := by
  rcases legal with rfl | rfl
  · exact const .done
  · exact const .reject

section
variable {s : State} {outcome : Byte}

theorem exec_complete_of_hunt (running : s.Running) (hunt : s.trunk.rx = .hunt) {ticket : Byte} (named : ticket ≠ 0)
    (legal : outcome = 1 ∨ outcome = 2) :
    exec (.complete ticket outcome) s = .next (s.withOutcome outcome (s.takeComplete ticket)) := by
  rw [exec, execComplete, whenRunning_running running, State.supervisorFrame_of_hunt hunt, gathered,
    frameVerdict_complete named legal, State.trunkVerdict, State.routeFrame_complete]

theorem exec_completeTop_of_hunt (running : s.Running) (hunt : s.trunk.rx = .hunt) (legal : outcome = 1 ∨ outcome = 2) :
    exec (.completeTop outcome) s = .next (s.withOutcome outcome s.takeCompleteTop) := by
  rw [exec, execCompleteTop, whenRunning_running running, State.supervisorFrame_of_hunt hunt, gathered,
    frameVerdict_completeTop legal, State.trunkVerdict, State.routeFrame_completeTop]

end

/-! ### A stray completion (R119) -/

/-- A set with a member joined that it holds already. -/
theorem insertMember_of_member {w : Nat} {x : BitVec w} {i : Nat} (h : member x i = true) : insertMember x i = x := by
  refine BitVec.eq_of_getLsbD_eq fun j _ => ?_
  rw [insertMember, BitVec.getLsbD_or, BitVec.getLsbD_twoPow]
  by_cases same : i = j
  · have inSet : x.getLsbD j = true := same ▸ h
    rw [inSet, Bool.true_or]
  · simp [same]

/-- Set or clear before, the condition is set after a cause; only the change is reported (R126). -/
theorem State.raiseTrunk_eq (s : State) (c : TrunkCondition) :
    s.raiseTrunk c = { s with
      trunk := { s.trunk with conditions := insertMember s.trunk.conditions c.bit }
      notices := if member s.trunk.conditions c.bit = true then s.notices else s.notices.trunkCause c } := by
  by_cases sticky : member s.trunk.conditions c.bit = true
  · rw [State.raiseTrunk, if_pos sticky, if_pos sticky, insertMember_of_member sticky]
  · rw [State.raiseTrunk, if_neg sticky, if_neg sticky]
    rfl

theorem State.raiseStray_eq (s : State) :
    s.raiseStray = { s with
      trunk := { s.trunk with
        strays := if s.trunk.strays = 65535 then 65535 else s.trunk.strays + 1
        conditions := s.trunk.conditions ||| BitVec.twoPow 7 TrunkCondition.stray.bit }
      notices := if member s.trunk.conditions TrunkCondition.stray.bit = true then s.notices
        else s.notices.trunkCause .stray } := by
  rw [State.raiseStray, State.raiseTrunk_eq, satInc_half]
  rfl

theorem State.holderOf_eq_none {s : State} {ticket : Byte} (unheld : ∀ l r, s.inServiceAt l = some r → r.ticket ≠ ticket) :
    s.holderOf ticket = none := by
  refine List.find?_eq_none.mpr fun l _ holds => ?_
  obtain ⟨r, inService, same⟩ := Option.any_eq_true _ _ |>.mp holds
  exact unheld l r inService (beq_iff_eq.mp same)

theorem State.topInService_eq_none {s : State} (empty : ∀ l, s.inServiceAt l = none) : s.topInService = none :=
  find_rankOrder_none fun l => by rw [empty l]; rfl

theorem State.takeComplete_stray {s : State} {ticket : Byte}
    (unheld : ∀ l r, s.inServiceAt l = some r → r.ticket ≠ ticket) (o : RetireOutcome) :
    s.takeComplete ticket o = s.raiseStray := by
  rw [State.takeComplete, State.holderOf_eq_none unheld, State.retireAt]

theorem State.takeCompleteTop_stray {s : State} (empty : ∀ l, s.inServiceAt l = none) (o : RetireOutcome) :
    s.takeCompleteTop o = s.raiseStray := by
  rw [State.takeCompleteTop, State.topInService_eq_none empty, State.retireAt]

/-- Settles O21: neither search finds a record, so that whatever the outcome the completion is stray. -/
theorem strayCompletionsAreOnlyCounted : Obligations.StrayCompletionsAreOnlyCounted := by
  unfold Obligations.StrayCompletionsAreOnlyCounted
  rintro s t ticket outcome running hunt legal rfl
  rw [← State.raiseStray_eq]
  refine ⟨fun named unheld => ?complete, fun empty => ?completeTop⟩
  case complete =>
    rw [exec_complete_of_hunt running hunt named legal,
      State.withOutcome_of_const legal (State.takeComplete_stray unheld)]
  case completeTop =>
    rw [exec_completeTop_of_hunt running hunt legal, State.withOutcome_of_const legal (State.takeCompleteTop_stray empty)]

end Sys2Proof.Machine
end

section
/-!
The order of service and the mask as the supervisor sets them (R88, R106, R147), and a level's place in the ranking as a number
(R104).
-/

namespace Sys2Proof.Machine

/-! ### Codes of the priority mode and the nesting mode (section 10.5.1) -/

theorem modeOperand_of_code {b : Byte} (h : b = 1 ∨ b = 2) : modeOperand b = some (if b = 1 then .fixed else .rotating) := by
  rcases h with rfl | rfl
  · rfl
  · rfl

theorem modeOperand_eq_none {b : Byte} (h : b ≠ 1 ∧ b ≠ 2) : modeOperand b = none := by
  obtain ⟨notFixed, notRotating⟩ := h
  rw [modeOperand, if_neg notFixed, if_neg notRotating]

theorem modeCode_of_code {b : Byte} (h : b = 1 ∨ b = 2) : modeCode (if b = 1 then .fixed else .rotating) = b := by
  rcases h with rfl | rfl
  · rfl
  · rfl

theorem nestingOperand_of_code {b : Byte} (h : b = 1 ∨ b = 2) : nestingOperand b = some (if b = 1 then .nested else .flat) := by
  rcases h with rfl | rfl
  · rfl
  · rfl

theorem nestingOperand_eq_none {b : Byte} (h : b ≠ 1 ∧ b ≠ 2) : nestingOperand b = none := by
  obtain ⟨notNested, notFlat⟩ := h
  rw [nestingOperand, if_neg notNested, if_neg notFlat]

theorem nestingCode_of_code {b : Byte} (h : b = 1 ∨ b = 2) : nestingCode (if b = 1 then .nested else .flat) = b := by
  rcases h with rfl | rfl
  · rfl
  · rfl

/-! ### SET-ORDER (R106, R147) -/

/-- A head request answered with the Service Unit changed. -/
theorem State.setService_answer_of_head (s : State) (q : QueuedRequest) (rest : List QueuedRequest) (x : ServiceUnit)
    (status : Status) (data : List Byte) :
    ((s.setManagement { s.management with queue := rest }).setService x).answer q status data =
      ({ s with service := x } : State).answered q rest status data :=
  State.answer_of_head (s.setService x) q rest status data

section
variable {s : State} {q : QueuedRequest} {rest : List QueuedRequest} {mode lowest nesting : Byte}

theorem exec_setOrder_illegal (running : s.Running) (head : s.Head q rest) (ho : q.op = opSetOrder)
    (operands : q.operands = [mode, lowest, nesting])
    (outside : (mode ≠ 1 ∧ mode ≠ 2) ∨ 15 < lowest.toNat ∨ (nesting ≠ 1 ∧ nesting ≠ 2)) :
    exec .setOrder s = .next (s.answered q rest .illegal []) := by
  have absent : modeOperand (operand q.operands 0) = none ∨ boundedOperand 16 (operand q.operands 1) = none ∨
      nestingOperand (operand q.operands 2) = none := by
    rw [operands]
    exact outside.imp modeOperand_eq_none (Or.imp boundedOperand_eq_none nestingOperand_eq_none)
  rw [exec, execSetOrder, whenRunning_executeOp running head ho (by rw [operands]; rfl)]
  split
  · next theMode theLowest theNesting => simp [theMode, theLowest, theNesting] at absent
  · rw [State.answer_of_head]

/-- The reply gives the values set and the L that they replace. -/
theorem exec_setOrder_ok (running : s.Running) (head : s.Head q rest) (ho : q.op = opSetOrder)
    (operands : q.operands = [mode, lowest, nesting]) {l : LevelId} (hm : mode = 1 ∨ mode = 2) (hl : l.val = lowest.toNat)
    (hn : nesting = 1 ∨ nesting = 2) :
    exec .setOrder s = .next (({ s with service := { s.service with
      mode := if mode = 1 then .fixed else .rotating
      lowest := l
      nesting := if nesting = 1 then .nested else .flat } } : State).answered q rest .ok
        [mode, lowest, nesting, BitVec.ofNat 8 s.service.lowest]) := by
  have theMode : modeOperand (operand q.operands 0) = some (if mode = 1 then .fixed else .rotating) := by
    rw [operands]
    exact modeOperand_of_code hm
  have theLowest : boundedOperand 16 (operand q.operands 1) = some l := by
    rw [operands]
    exact boundedOperand_of_val_eq hl
  have theNesting : nestingOperand (operand q.operands 2) = some (if nesting = 1 then .nested else .flat) := by
    rw [operands]
    exact nestingOperand_of_code hn
  rw [exec, execSetOrder, whenRunning_executeOp running head ho (by rw [operands]; rfl), theMode, theLowest, theNesting]
  simp only [State.setOrderTo, State.setManagement_service]
  rw [State.setService_answer_of_head, modeCode_of_code hm, byteOf_of_eq_toNat hl, nestingCode_of_code hn, byteOf]

end

/-! ### MASK-LEVELS (R88, R147) -/

/-- Levels 0 to 7 stand in the first byte of the set as it is sent, 8 to 15 in the second (R1). -/
theorem LevelUnit.withMask_joinBytes (u : LevelUnit) (low high : Byte) :
    u.withMask (joinBytes high low) = { u with
      levels := tabulate fun l => { look u.levels l with
        masked := if l.val < 8 then low.getLsbD l else high.getLsbD (l.val - 8) } } := by
  simp only [LevelUnit.withMask, member, getLsbD_joinBytes]

theorem setBytes_joinBytes (low high : Byte) : setBytes (joinBytes high low) = [low, high] := by
  rw [setBytes, loByte_join, hiByte_join]

theorem exec_maskLevels_ok {s : State} {q : QueuedRequest} {rest : List QueuedRequest} {low high : Byte}
    (running : s.Running) (head : s.Head q rest) (ho : q.op = opMaskLevels) (operands : q.operands = [low, high]) :
    exec .maskLevels s = .next ((s.setLevelUnit (s.levelUnit.withMask (joinBytes high low))).answered q rest .ok [low, high]) := by
  have theMask : maskOperand q.operands = joinBytes high low := by
    rw [operands]
    rfl
  rw [exec, execMaskLevels, whenRunning_executeOp running head ho (by rw [operands]; rfl), theMask,
    State.setManagement_levelUnit, State.setLevelUnit_answer_of_head, setBytes_joinBytes]

/-! ### The place of a level in the ranking (R104) -/

theorem rankPlace_val (lowest l : LevelId) : (rankPlace lowest l).val = (lowest.val + 31 - l.val) % 16 := by
  simp only [rankPlace, Fin.sub_def, Fin.val_one]
  omega

/-- Settles O41: the operands of SET-ORDER are in range or not, MASK-LEVELS replaces the mask of every level, and ranks compare by
the places that `rankPlace_val` counts. -/
theorem orderAndMaskAreSet : Obligations.OrderAndMaskAreSet := by
  unfold Obligations.OrderAndMaskAreSet
  refine ⟨fun s q rest mode lowest nesting running head ho operands =>
      ⟨exec_setOrder_illegal running head ho operands, fun l hm hl hn => exec_setOrder_ok running head ho operands hm hl hn⟩,
    fun s q rest low high running head ho operands => ?mask, ⟨by decide, by decide, by decide⟩,
    fun lowest a b => ?ranks⟩
  case mask =>
    rw [exec_maskLevels_ok running head ho operands, LevelUnit.withMask_joinBytes]
    rfl
  case ranks => rw [ranksAbove_iff, rankPlace_val, rankPlace_val]

end Sys2Proof.Machine
end

section
/-!
Sticky conditions of a port and of the trunk as a cause meets them: set already, or clear until now (R17, R126).
-/

namespace Sys2Proof.Machine

/-! ### A cause of a port's condition (R17) -/

section
variable {s : State} {p : PortId} {c : PortCondition}

theorem State.raisePort_of_set (set : member (look s.ports p).conditions c.bit = true) : s.raisePort p c = s := by
  rw [State.raisePort, if_pos set]

/-- The port's settings at the cause decide whether the change is handed on. -/
theorem State.raisePort_of_clear (clear : member (look s.ports p).conditions c.bit = false) :
    s.raisePort p c = { s with
      ports := put s.ports p { look s.ports p with conditions := insertMember (look s.ports p).conditions c.bit }
      notices := if (look s.ports p).noticeEnabled = true then s.notices.portCause p else s.notices } := by
  rw [State.raisePort, if_neg (Bool.eq_false_iff.mp clear)]
  by_cases noticesOn : (look s.ports p).noticeEnabled = true
  · rw [if_pos noticesOn, if_pos noticesOn]
    rfl
  · rw [if_neg noticesOn, if_neg noticesOn]
    rfl

end

/-! ### A cause of a trunk condition (R126) -/

section
variable {s : State} {c : TrunkCondition}

theorem State.raiseTrunk_of_set (set : member s.trunk.conditions c.bit = true) : s.raiseTrunk c = s := by
  rw [State.raiseTrunk, if_pos set]

theorem State.raiseTrunk_of_clear (clear : member s.trunk.conditions c.bit = false) :
    s.raiseTrunk c = { s with
      trunk := { s.trunk with conditions := insertMember s.trunk.conditions c.bit }
      notices := s.notices.trunkCause c } := by
  rw [State.raiseTrunk_eq, if_neg (Bool.eq_false_iff.mp clear)]

end

/-- A stray completion is counted whether or not STRAY is set, and then is a cause of STRAY as any other. -/
theorem State.raiseStray_eq_raiseTrunk (s : State) :
    s.raiseStray = ({ s with trunk := { s.trunk with
      strays := if s.trunk.strays = 65535 then 65535 else s.trunk.strays + 1 } } : State).raiseTrunk .stray := by
  rw [State.raiseStray, satInc_half]
  rfl

/-- Settles O18: for a port and for the trunk a cause finds its condition set, and changes nothing, or finds it clear; the count of
strays comes before the cause of STRAY. -/
theorem conditionsAreSticky : Obligations.ConditionsAreSticky := by
  unfold Obligations.ConditionsAreSticky
  have portBits : [PortCondition.overrun, .framing, .check, .format, .releaseLost, .linkChange].map PortCondition.bit =
      [0, 1, 2, 3, 4, 5] := rfl
  have trunkBits : [TrunkCondition.framing, .check, .format, .unknownKind, .stray, .mgmtDrop, .linkChange].map
      TrunkCondition.bit = [0, 1, 2, 3, 4, 5, 6] := rfl
  exact ⟨⟨fun _ _ _ => State.raisePort_of_set, fun _ _ _ => State.raisePort_of_clear, portBits⟩,
    ⟨fun _ _ => State.raiseTrunk_of_set, fun _ _ => State.raiseTrunk_of_clear, trunkBits, State.raiseStray_eq_raiseTrunk⟩⟩

end Sys2Proof.Machine
end

section
/-!
The supervisor's requests as the Management Unit meets them: acceptance into a reply slot, refusal from a refusal slot or discard
(R140, R141), and what IDENT answers (R145).
-/

namespace Sys2Proof.Machine

/-! ### The search for a free slot (R140, R141) -/

section
variable {α : Type} {n : Nat} {v : Vector (Option α) n}

/-- A search over a table of slots finds one that is free, whenever there is one. -/
theorem find_isNone_of_free (free : ∃ i, look v i = none) :
    ∃ i, look v i = none ∧ ((List.finRange n).find? fun i => (look v i).isNone) = some i := by
  obtain ⟨j, hj⟩ := free
  have found : ((List.finRange n).find? fun i => (look v i).isNone).isSome :=
    List.find?_isSome.mpr ⟨j, List.mem_finRange j, Option.isNone_iff_eq_none.mpr hj⟩
  obtain ⟨i, hi⟩ := Option.isSome_iff_exists.mp found
  have isFree : (look v i).isNone = true := List.find?_some (p := fun i => (look v i).isNone) hi
  exact ⟨i, Option.isNone_iff_eq_none.mp isFree, hi⟩

theorem find_isNone_of_taken (taken : ∀ i, look v i ≠ none) :
    ((List.finRange n).find? fun i => (look v i).isNone) = none :=
  List.find?_eq_none.mpr fun i _ isFree => taken i (Option.isNone_iff_eq_none.mp isFree)

end

/-! ### A VALID REQUEST at the Management Unit (R140, R141) -/

section
variable {s : State} {tag op : Byte} {operands : List Byte}

theorem State.takeRequest_of_freeSlot {i : ReplySlotId} (free : s.management.freeSlot = some i) :
    s.takeRequest tag op operands = s.accept i tag op operands := by
  rw [State.takeRequest, free]

theorem State.takeRequest_of_no_freeSlot (taken : ∀ i, look s.management.slots i ≠ none) :
    s.takeRequest tag op operands = s.refuse tag op := by
  have noSlot : s.management.freeSlot = none := find_isNone_of_taken taken
  rw [State.takeRequest, noSlot]

/-- A refusal takes the refusal slot and the tail of the reply class. -/
theorem State.refuse_of_freeRefusal {i : RefusalSlotId} (free : s.management.freeRefusal = some i) :
    s.refuse tag op = { s with
      management := { s.management with refusals := put s.management.refusals i (some {
        tag := tag, op := op, status := .queueFull, data := [] }) }
      trunk := { s.trunk with replies := s.trunk.replies ++ [{
        source := .refusal i, reply := { tag := tag, op := op, status := .queueFull, data := [] } }] } } := by
  rw [State.refuse, free]
  rfl

theorem State.refuse_of_no_freeRefusal (taken : ∀ i, look s.management.refusals i ≠ none) :
    s.refuse tag op = s.raiseTrunk .mgmtDrop := by
  have noSlot : s.management.freeRefusal = none := find_isNone_of_taken taken
  rw [State.refuse, noSlot]

/-- A REQUEST frame gives its fields back: the operands end where their length byte says, ahead of the check. -/
theorem State.routeFrame_request (fits : operands.length ≤ 24) :
    s.routeFrame (closeFrame (requestBody tag op operands)) = s.takeRequest tag op operands := by
  have length : (byteOf operands.length).toNat = operands.length := byteOf_toNat (by omega)
  have field : ((closeFrame (requestBody tag op operands)).drop 4).take (byteOf operands.length).toNat = operands := by
    rw [length]
    exact List.take_left
  exact congrArg (s.takeRequest tag op) field

theorem exec_request_of_hunt (running : s.Running) (hunt : s.trunk.rx = .hunt) (fits : operands.length ≤ 24) :
    exec (.request tag op operands) s = .next (s.takeRequest tag op operands) := by
  rw [exec, execRequest, whenRunning_running running, State.supervisorFrame_of_hunt hunt, gathered,
    frameVerdict_request tag op fits, State.trunkVerdict, State.routeFrame_request fits]

end

/-- Settles O37: the search for a reply slot and then the search for a refusal slot find a free one or none. -/
theorem requestsAreAcceptedOrRefused : Obligations.RequestsAreAcceptedOrRefused := by
  unfold Obligations.RequestsAreAcceptedOrRefused
  intro s tag op operands running hunt fits
  rw [exec_request_of_hunt running hunt fits]
  refine ⟨fun free => ?accepted, fun taken free => ?refused, fun taken allTaken => ?discarded⟩
  case accepted =>
    obtain ⟨i, isFree, found⟩ := find_isNone_of_free free
    exact ⟨i, isFree, congrArg Host.Outcome.next (State.takeRequest_of_freeSlot found)⟩
  case refused =>
    obtain ⟨i, isFree, found⟩ := find_isNone_of_free free
    exact ⟨i, isFree, by rw [State.takeRequest_of_no_freeSlot taken, State.refuse_of_freeRefusal found]⟩
  case discarded => rw [State.takeRequest_of_no_freeSlot taken, State.refuse_of_no_freeRefusal allTaken]

/-! ### IDENT (R145) -/

/-- The reply's data: the identity in two numbers high byte first, then the capacities. -/
theorem identData_eq : identData = [0x4A, 0x46, 0x09, 0x9C, 3, 6, 64, 2, 16, 128, 32, 4] := by decide

theorem exec_ident_ok {s : State} {q : QueuedRequest} {rest : List QueuedRequest} (running : s.Running)
    (head : s.Head q rest) (ho : q.op = opIdent) (operands : q.operands = []) :
    exec .ident s = .next (s.answered q rest .ok identData) := by
  rw [exec, execIdent, whenRunning_executeOp running head ho (by rw [operands]; rfl), State.answer_of_head]

/-- Settles O39: IDENT takes no operands and its data are constants, so that the head request is answered and no more. -/
theorem identReportsThePart : Obligations.IdentReportsThePart := by
  unfold Obligations.IdentReportsThePart
  intro s q rest running head ho operands
  rw [exec_ident_ok running head ho operands, identData_eq]

end Sys2Proof.Machine
end

section
/-!
How a predicate on states is carried through a step: the queue's front command runs, RESET_N held low suspends it, a head request
is executed or not, and the symbols of a line are taken one verdict after another. Each invariant then needs to meet only what a
command's own effect does.
-/

namespace Sys2Proof.Machine

/-! ### A step and its command -/

/-- Settles O1: the step's own equation at a queue with a front. -/
theorem stepTakesTheFrontCommand : Obligations.StepTakesTheFrontCommand := by
  unfold Obligations.StepTakesTheFrontCommand
  intro c s
  rfl

theorem step_of_empty {s : State} (empty : s.pending = []) : step s = .next s := by
  rw [step, empty]

/-- A suspended command keeps what its effect keeps while RESET_N is not held low. -/
theorem whenRunning_keeps {P : State → Prop} {effect : State → State} {s t : State} (h : P s)
    (kept : s.Running → P (effect s)) (e : whenRunning s effect = .next t) : P t := by
  rcases whenRunning_cases e with ⟨-, rfl⟩ | ⟨running, rfl⟩
  · exact h
  · exact kept running

/-- Every command answers a next state: a suspended one by `whenRunning`, the others by their own meaning. -/
theorem exec_answers_next (c : Instr) (s : State) : ∃ t, exec c s = .next t := by
  by_cases h : unsuspended c = true
  · cases c with
    | resetNLow => exact ⟨_, rfl⟩
    | resetNRelease lines => exact ⟨_, rfl⟩
    | lineComesLive link => exact ⟨_, rfl⟩
    | lineGoesDead link => exact ⟨_, rfl⟩
    | _ => cases h
  · obtain ⟨effect, suspended⟩ := exec_suspended (Bool.eq_false_iff.mpr h)
    exact ⟨_, suspended s⟩

/-- Settles O2: `exec_answers_next` for the answer, `exec_touches` for the queue, which no command touches. -/
theorem everyStepAnswersNext : Obligations.EveryStepAnswersNext := by
  unfold Obligations.EveryStepAnswersNext
  refine ⟨fun c s => ?_, fun s => step_of_empty⟩
  obtain ⟨t, e⟩ := exec_answers_next c s
  exact ⟨t, e, (exec_touches c e).pending⟩

/-! ### The execution of a head request -/

theorem State.executeHead_keeps {P : State → Prop} {s : State} {picks : QueuedRequest → Bool}
    {effect : QueuedRequest → State → State} (h : P s)
    (kept : ∀ q rest, s.Head q rest → picks q = true → P (effect q (s.setManagement { s.management with queue := rest }))) :
    P (s.executeHead picks effect) := by
  rcases s.executeHead_cases picks effect with e | ⟨q, rest, head, picked, e⟩
  · rw [e]
    exact h
  · rw [e]
    exact kept q rest head picked

theorem State.executeOp_keeps {P : State → Prop} {s : State} {op : Byte} {oplen : Nat}
    {effect : QueuedRequest → State → State} (h : P s)
    (malformed : ∀ q rest, s.Head q rest → P (s.answered q rest .malformed []))
    (kept : ∀ q rest, s.Head q rest → q.op = op → q.operands.length = oplen →
      P (effect q (s.setManagement { s.management with queue := rest }))) :
    P (s.executeOp op oplen effect) := by
  refine State.executeHead_keeps h fun q rest head picked => ?_
  split
  · next length => exact kept q rest head (beq_iff_eq.mp picked) length
  · exact malformed q rest head

/-! ### Verdicts, one after another -/

theorem foldl_keeps {α : Type} {P : State → Prop} {f : State → α → State} {xs : List α} {s : State} (h : P s)
    (kept : ∀ s, ∀ x ∈ xs, P s → P (f s x)) : P (xs.foldl f s) := by
  induction xs generalizing s with
  | nil => exact h
  | cons x xs ih =>
    exact ih (kept s x List.mem_cons_self h) fun u y member => kept u y (List.mem_cons_of_mem x member)

/-- A verdict that a receiver may hand over: FRAMING, or its verdict on some frame. -/
def Handed (k : LinkKind) (v : Verdict) : Prop := v = .framing ∨ ∃ f, v = frameVerdict k f

theorem Receiver.take_handed {k : LinkKind} {r : Receiver} {x : Symbol} {v : Verdict} (h : v ∈ (r.take k x).2) :
    Handed k v := by
  cases r with
  | dead => cases h
  | hunt => cases x <;> cases h
  | inFrame f =>
    cases x with
    | start => cases h; exact .inl rfl
    | data b => cases h
    | idle => cases h
    | endMarker => cases h; exact .inr ⟨f, rfl⟩
    | abort => cases h; exact .inl rfl
    | violation => cases h; exact .inl rfl

theorem Receiver.run_handed {k : LinkKind} {v : Verdict} :
    ∀ {xs : List Symbol} {r : Receiver}, v ∈ (Receiver.run k r xs).2 → Handed k v
  | [], _, h => by cases h
  | x :: xs, r, h => by
    rw [Receiver.run] at h
    rcases List.mem_append.mp h with now | later
    · exact Receiver.take_handed (Option.mem_toList.mp now)
    · exact Receiver.run_handed later

/-- No symbol makes a DEAD receiver LIVE or a LIVE one DEAD (R3). -/
theorem Receiver.take_live (k : LinkKind) (r : Receiver) (x : Symbol) : (r.take k x).1.live = r.live := by
  cases r with
  | dead => rfl
  | hunt => cases x <;> rfl
  | inFrame f => cases x <;> rfl

theorem Receiver.run_live (k : LinkKind) : ∀ (xs : List Symbol) (r : Receiver), (Receiver.run k r xs).1.live = r.live
  | [], _ => rfl
  | x :: xs, r => (Receiver.run_live k xs (r.take k x).1).trans (r.take_live k x)

/-- What the change of a receiver that keeps its liveness and every verdict of it keep, the arrival of symbols keeps. -/
theorem State.fieldArrival_keeps {P : State → Prop} {s : State} {p : PortId} (symbols : List Symbol)
    (rx : ∀ r : Receiver, r.live = (look s.ports p).rx.live → P (s.withPortRx p r))
    (verdict : ∀ u v, Handed .field v → P u → P (u.portVerdict p v)) : P (s.fieldArrival p symbols) :=
  foldl_keeps (rx _ (Receiver.run_live _ _ _)) fun u v member => verdict u v (Receiver.run_handed member)

theorem State.trunkArrival_keeps {P : State → Prop} {s : State} (symbols : List Symbol)
    (rx : ∀ r : Receiver, r.live = s.trunk.rx.live → P (s.withTrunkRx r))
    (verdict : ∀ u v, Handed .trunk v → P u → P (u.trunkVerdict v)) : P (s.trunkArrival symbols) :=
  foldl_keeps (rx _ (Receiver.run_live _ _ _)) fun u v member => verdict u v (Receiver.run_handed member)

/-- What a port may do with a verdict: raise a condition, or, when it is enabled and has room, take an event (R15). -/
theorem State.portVerdict_keeps {P : State → Prop} {s : State} {p : PortId} {v : Verdict} (h : P s)
    (raise : ∀ c, P (s.raisePort p c))
    (take : ∀ bytes e, v = .valid bytes → parseEvent bytes = some e → (look s.ports p).enabled = true →
      (look s.ports p).received.length < 4 →
      P (s.setPort p { look s.ports p with received := (look s.ports p).received ++ [e] })) : P (s.portVerdict p v) := by
  cases enabled : (look s.ports p).enabled with
  | false =>
    rw [State.portVerdict_disabled enabled]
    exact h
  | true =>
    rw [State.portVerdict_enabled enabled]
    cases v with
    | framing => exact raise .framing
    | check => exact raise .check
    | unknownKind => exact raise .format
    | format => exact raise .format
    | valid bytes =>
      cases parsed : parseEvent bytes with
      | none => simpa [State.actOnVerdict, parsed] using h
      | some e =>
        rw [State.actOnVerdict_valid s p parsed]
        by_cases room : (look s.ports p).received.length < 4
        · rw [State.receiveEvent_of_room room]
          exact take bytes e rfl parsed enabled room
        · rw [State.receiveEvent_of_full (Nat.not_lt.mp room)]
          exact raise .overrun

/-- What a completion may do: retire a record in service, or count as stray (R116 to R119). -/
theorem State.retireAt_keeps {P : State → Prop} {s : State} {l : Option LevelId} {o : RetireOutcome}
    (retire : ∀ l r, s.inServiceAt l = some r → P (s.retire l r o)) (stray : P s.raiseStray) : P (s.retireAt l o) := by
  cases l with
  | none => exact stray
  | some l =>
    simp only [State.retireAt]
    split
    · next r inService => exact retire l r inService
    · exact stray

/-- What the trunk may do with a verdict: raise a condition, retire a record, count a stray completion, change the pause state, or
take a request (R125). -/
theorem State.trunkVerdict_keeps {P : State → Prop} {s : State} (v : Verdict) (h : P s)
    (raise : ∀ c, P (s.raiseTrunk c)) (retire : ∀ l r o, s.inServiceAt l = some r → P (s.retire l r o))
    (stray : P s.raiseStray) (pause : ∀ x, P (s.setTrunk { s.trunk with pause := x }))
    (request : ∀ tag op operands, P (s.takeRequest tag op operands)) : P (s.trunkVerdict v) := by
  have outcome : ∀ (b : Byte) (take : RetireOutcome → State), (∀ o, P (take o)) → P (s.withOutcome b take) := by
    intro b take kept
    unfold State.withOutcome
    split
    · exact kept _
    · exact h
  cases v with
  | framing => exact raise .framing
  | check => exact raise .check
  | unknownKind => exact raise .unknownKind
  | format => exact raise .format
  | valid bytes =>
    simp only [State.trunkVerdict, State.routeFrame]
    split_ifs
    · exact outcome _ _ fun o => State.retireAt_keeps (fun l r => retire l r o) stray
    · exact outcome _ _ fun o => State.retireAt_keeps (fun l r => retire l r o) stray
    · exact pause _
    · exact pause _
    · exact request _ _ _
    · exact h

end Sys2Proof.Machine
end

section
/-!
The lines as they come live and go dead, while RESET_N is held low (R155) and while it is not (R2, R3, R11, R14, R22, R124, R131).
-/

namespace Sys2Proof.Machine

/-! ### Receivers -/

theorem Receiver.live_eq_false_iff {r : Receiver} : r.live = false ↔ r = .dead := by
  cases r <;> simp [Receiver.live]

theorem Receiver.live_eq_true_iff {r : Receiver} : r.live = true ↔ r ≠ .dead := by
  cases r <;> simp [Receiver.live]

/-- The verdict on the frame that a line cuts by going dead: FRAMING, and for a receiver in HUNT none (R3). -/
theorem Receiver.goDead_verdict {r : Receiver} (live : r ≠ .dead) :
    r.goDead.2 = if r = .hunt then none else some .framing := by
  cases r with
  | dead => exact absurd rfl live
  | hunt => rfl
  | inFrame f => rfl

/-! ### Transmitters that lose their frame (R11, R12) -/

@[simp] theorem FieldTransmitter.abort_sending (tx : FieldTransmitter) : tx.abort.sending = none := by
  unfold FieldTransmitter.abort
  split
  · rfl
  · next idle => simpa using idle

@[simp] theorem TrunkTransmitter.abort_sending (tx : TrunkTransmitter) : tx.abort.sending = none := by
  unfold TrunkTransmitter.abort
  split
  · rfl
  · next idle => simpa using idle

@[simp] theorem FieldTransmitter.cutOff_sending (tx : FieldTransmitter) : tx.cutOff.sending = none := by
  unfold FieldTransmitter.cutOff
  split
  · rfl
  · next idle => simpa using idle

@[simp] theorem TrunkTransmitter.cutOff_sending (tx : TrunkTransmitter) : tx.cutOff.sending = none := by
  unfold TrunkTransmitter.cutOff
  split
  · rfl
  · next idle => simpa using idle

/-! ### A field line -/

section
variable {s : State} {p : PortId}

theorem State.withPortRx_self (rx : Receiver) (same : (look s.ports p).rx = rx) : s.withPortRx p rx = s := by
  subst same
  exact s.setPort_self p

theorem State.fieldLive_of_live (live : (look s.ports p).rx ≠ .dead) : s.fieldLive p = s := by
  rw [State.fieldLive, if_pos (Receiver.live_eq_true_iff.mpr live)]

theorem State.fieldLive_of_dead (dead : (look s.ports p).rx = .dead) :
    s.fieldLive p = if s.Running ∧ (look s.ports p).enabled = true
      then (s.withPortRx p .hunt).raisePort p .linkChange else s.withPortRx p .hunt := by
  rw [State.fieldLive, dead, if_neg (by simp [Receiver.live])]
  rfl

theorem State.fieldDead_of_dead (dead : (look s.ports p).rx = .dead) : s.fieldDead p = s := by
  rw [State.fieldDead, if_pos (Receiver.live_eq_false_iff.mpr dead)]

theorem State.fieldLive_of_held (held : s.resetHeld = true) :
    s.fieldLive p = s.withPortRx p (if (look s.ports p).rx = .dead then .hunt else (look s.ports p).rx) := by
  by_cases dead : (look s.ports p).rx = .dead
  · rw [State.fieldLive_of_dead dead, if_neg (by simp [held]), if_pos dead]
  · rw [State.fieldLive_of_live dead, if_neg dead, State.withPortRx_self _ rfl]

theorem State.fieldDead_of_held (held : s.resetHeld = true) : s.fieldDead p = s.withPortRx p .dead := by
  by_cases dead : (look s.ports p).rx = .dead
  · rw [State.fieldDead_of_dead dead, State.withPortRx_self .dead dead]
  · rw [State.fieldDead, if_neg (mt Receiver.live_eq_false_iff.mp dead), if_pos held]
    rfl

/-- The port as its line has gone dead: the RELEASE on the wire aborted and its request unmarked (R11, R22). -/
def State.portDown (s : State) (p : PortId) : State :=
  s.setPort p { look s.ports p with rx := .dead, headMarked := false, tx := (look s.ports p).tx.abort }

theorem State.fieldDead_of_live (running : s.Running) (live : (look s.ports p).rx ≠ .dead) :
    s.fieldDead p = if (look s.ports p).enabled = true
      then ((s.portDown p).portVerdict? p (look s.ports p).rx.goDead.2).raisePort p .linkChange
      else (s.portDown p).portVerdict? p (look s.ports p).rx.goDead.2 := by
  rw [State.fieldDead, if_neg (mt Receiver.live_eq_false_iff.mp live), if_neg (by simp [running])]
  rfl

@[simp] theorem State.portDown_look_enabled : (look (s.portDown p).ports p).enabled = (look s.ports p).enabled := by
  simp [State.portDown]

end

/-! ### The trunk line -/

section
variable {s : State}

theorem State.trunkLive_of_live (live : s.trunk.rx ≠ .dead) : s.trunkLive = s := by
  rw [State.trunkLive, if_pos (Receiver.live_eq_true_iff.mpr live)]

theorem State.trunkLive_of_held (held : s.resetHeld = true) :
    s.trunkLive = s.withTrunkRx (if s.trunk.rx = .dead then .hunt else s.trunk.rx) := by
  by_cases dead : s.trunk.rx = .dead
  · rw [State.trunkLive, if_neg (by simp [dead, Receiver.live]), if_pos dead, dead]
    exact if_pos held
  · rw [State.trunkLive_of_live dead, if_neg dead]
    rfl

theorem State.trunkLive_of_dead (running : s.Running) (dead : s.trunk.rx = .dead) :
    s.trunkLive = (s.withTrunkRx .hunt).grantRestarted.raiseTrunk .linkChange := by
  rw [State.trunkLive, if_neg (by simp [dead, Receiver.live]), dead]
  exact if_neg (by simp [running])

theorem State.trunkDead_of_dead (dead : s.trunk.rx = .dead) : s.trunkDead = s := by
  rw [State.trunkDead, if_pos (Receiver.live_eq_false_iff.mpr dead)]

theorem State.trunkDead_of_held (held : s.resetHeld = true) : s.trunkDead = s.withTrunkRx .dead := by
  by_cases dead : s.trunk.rx = .dead
  · rw [State.trunkDead_of_dead dead, State.withTrunkRx, ← dead]
    rfl
  · rw [State.trunkDead, if_neg (mt Receiver.live_eq_false_iff.mp dead), if_pos held]
    rfl

/-- The trunk as its line has gone dead, before the frame on the wire is aborted: the frame in reception is cut and the link is
DOWN (R3, R124). -/
def State.trunkDown (s : State) : State :=
  if s.trunk.rx = .hunt then (s.withTrunkRx .dead).raiseTrunk .linkChange
  else ((s.withTrunkRx .dead).raiseTrunk .framing).raiseTrunk .linkChange

theorem State.trunkDead_of_live (running : s.Running) (live : s.trunk.rx ≠ .dead) : s.trunkDead = s.trunkDown.abortTrunk := by
  rw [State.trunkDead, if_neg (mt Receiver.live_eq_false_iff.mp live), if_neg (by simp [running]),
    Receiver.goDead_verdict live, State.trunkDown]
  split_ifs
  · rfl
  · rfl

/-! ### The abort of the frame on the trunk (R11, R131) -/

/-- The trunk transmitter after an abort. -/
def State.wireAborted (s : State) : State := s.setTrunk { s.trunk with tx := { sending := none, closing := .abort } }

theorem State.sending_of_onWire {g : GrantedFrame} (h : s.onWire = some g) :
    ∃ frame, s.trunk.tx.sending = some frame ∧ frame.granted = g :=
  Option.map_eq_some_iff.mp h

theorem State.sending_eq_none_of_onWire (h : s.onWire = none) : s.trunk.tx.sending = none :=
  Option.map_eq_none_iff.mp h

theorem State.abortTrunk_of_none (h : s.onWire = none) : s.abortTrunk = s := by
  rw [State.abortTrunk, State.sending_eq_none_of_onWire h]

theorem State.abortTrunk_of_some {g : GrantedFrame} (h : s.onWire = some g) : s.abortTrunk = s.wireAborted.ownAbort g := by
  obtain ⟨frame, sending, rfl⟩ := State.sending_of_onWire h
  rw [State.abortTrunk, sending]
  simp only [TrunkTransmitter.abort, sending, Option.isSome_some, if_true]
  rfl

/-- An abort is kept by what keeps each owner's response to it: a notice returned, a resend put back, a dispatched record put back
in its queue. -/
theorem State.ownAbort_keeps {P : State → Prop} {s : State} {g : GrantedFrame} (h : P s)
    (notice : ∀ frame, g = .notice frame false → P (s.setNotices { s.notices with returned := some frame }))
    (resend : ∀ l r, g = .resend l r.ticket → s.inServiceAt l = some r → r.phase = .resending →
      P (s.setInService l (some { r with phase := .resendWait, attempt := r.attempt - 1 })))
    (held : ∀ l r, g = .dispatch l (some r.ticket) → s.inServiceAt l = some r → r.phase = .dispatching →
      P ((s.setInService l none).abortReturn r.record))
    (posted : ∀ l r, g = .dispatch l none → s.levelUnit.inTransmission = some r →
      P ((s.setLevelUnit { s.levelUnit with inTransmission := none }).abortReturn r)) : P (s.ownAbort g) := by
  have found : ∀ {l ticket} {phase : SubState} {r}, s.reported l ticket (· == phase) = some r →
      s.inServiceAt l = some r ∧ r.ticket = ticket ∧ r.phase = phase := by
    intro l ticket phase r h
    unfold State.reported at h
    split at h
    · next r' inService =>
      split at h
      · next test =>
        cases h
        exact ⟨inService, by simpa using test⟩
      · cases h
    · cases h
  unfold State.ownAbort
  split
  · exact h
  · next frame cancelled =>
    cases cancelled with
    | true => exact h
    | false => exact notice frame rfl
  · next l ticket =>
    split
    · next r isFound =>
      obtain ⟨inService, rfl, phase⟩ := found isFound
      exact resend l r rfl inService phase
    · exact h
  · next l ticket =>
    split
    · next r isFound =>
      obtain ⟨inService, rfl, phase⟩ := found isFound
      exact held l r rfl inService phase
    · exact h
  · next l =>
    split
    · next r inTransmission => exact posted l r rfl inTransmission
    · exact h

end

/-! ### While RESET_N is held low (R155) -/

/-- Settles O4: a suspended command waits for RESET_N, and the line events meet the receiver alone. -/
theorem nothingRunsWhileResetIsHeld : Obligations.NothingRunsWhileResetIsHeld := by
  unfold Obligations.NothingRunsWhileResetIsHeld
  refine ⟨fun c s held low release live dead => ?suspended,
    fun p s held => ⟨congrArg Host.Outcome.next (State.fieldLive_of_held held),
      congrArg Host.Outcome.next (State.fieldDead_of_held held)⟩,
    fun s held => ⟨congrArg Host.Outcome.next (State.trunkLive_of_held held),
      congrArg Host.Outcome.next (State.trunkDead_of_held held)⟩⟩
  case suspended =>
    have waits : unsuspended c = false := by
      cases c with
      | resetNLow => exact absurd rfl low
      | resetNRelease lines => exact absurd rfl (release lines)
      | lineComesLive link => exact absurd rfl (live link)
      | lineGoesDead link => exact absurd rfl (dead link)
      | _ => rfl
    obtain ⟨effect, suspended⟩ := exec_suspended waits
    rw [suspended, whenRunning_held held]

/-! ### Line events while the part runs -/

/-- Settles O6: the receiver is DEAD or not, and a line that goes dead cuts a frame or finds the receiver in HUNT. -/
theorem fieldLineEventsMoveThePort : Obligations.FieldLineEventsMoveThePort := by
  unfold Obligations.FieldLineEventsMoveThePort
  refine ⟨fun p s running dead => ?live, fun p s _ live => congrArg Host.Outcome.next (State.fieldLive_of_live live),
    fun p s _ dead => congrArg Host.Outcome.next (State.fieldDead_of_dead dead), fun p s now running live isNow => ?dead⟩
  case live =>
    refine congrArg Host.Outcome.next ((State.fieldLive_of_dead dead).trans ?_)
    exact ite_congr (propext (and_iff_right running)) (fun _ => rfl) (fun _ => rfl)
  case dead =>
    have isDown : now = s.portDown p := by rw [isNow, State.portDown, FieldTransmitter.abort_eq_endedWith]
    have down := State.fieldDead_of_live running live
    subst isDown
    refine ⟨fun disabled => ?disabled, fun enabled hunt => ?hunt, fun frame enabled inFrame => ?inFrame⟩
    case disabled =>
      rw [if_neg (by simp [disabled])] at down
      refine congrArg Host.Outcome.next (down.trans ?_)
      cases (look s.ports p).rx.goDead.2 with
      | none => rfl
      | some v => exact State.portVerdict_disabled (by simpa using disabled) v
    case hunt =>
      rw [if_pos enabled, Receiver.goDead_verdict live, if_pos hunt] at down
      exact congrArg Host.Outcome.next down
    case inFrame =>
      rw [if_pos enabled, Receiver.goDead_verdict live, if_neg (by simp [inFrame])] at down
      refine congrArg Host.Outcome.next (down.trans (congrArg (State.raisePort · p .linkChange) ?_))
      exact State.portVerdict_enabled (by simpa using enabled) .framing

/-! ### The trunk line while the part runs -/

theorem State.powerWaits_eq_true_iff {n : NoticeUnit} :
    n.powerWaits = true ↔ ∃ x, n.restarted = some x ∧ x.cause = .power := by
  simp [NoticeUnit.powerWaits, Option.any_eq_true]

@[simp] theorem State.raiseTrunk_onWire (s : State) (c : TrunkCondition) : (s.raiseTrunk c).onWire = s.onWire := by
  rw [State.raiseTrunk_eq]
  rfl

section
variable (s : State)

theorem State.trunkDown_touches : SameOutside [.trunk, .notices] s s.trunkDown := by
  have dead : SameOutside [.trunk, .notices] s (s.withTrunkRx .dead) := by
    constructor <;> first | rfl | (intro h; first | rfl | exact absurd (by decide) h)
  unfold State.trunkDown
  split_ifs
  · exact dead.trans (raiseTrunk_touches _ _)
  · exact (dead.trans (raiseTrunk_touches _ _)).trans (raiseTrunk_touches _ _)

@[simp] theorem State.trunkDown_onWire : s.trunkDown.onWire = s.onWire := by
  unfold State.trunkDown
  split_ifs
  · rw [State.raiseTrunk_onWire]
    rfl
  · rw [State.raiseTrunk_onWire, State.raiseTrunk_onWire]
    rfl

@[simp] theorem State.trunkDown_inServiceAt (l : LevelId) : s.trunkDown.inServiceAt l = s.inServiceAt l := by
  rw [State.inServiceAt, s.trunkDown_touches.service (by decide)]
  rfl

@[simp] theorem State.trunkDown_levelUnit : s.trunkDown.levelUnit = s.levelUnit :=
  s.trunkDown_touches.levelUnit (by decide)

end

/-- What a trunk line that goes dead may do: nothing, or move the receiver alone while RESET_N is held low, or take the link DOWN
with no frame on the wire, or with one that is then aborted. -/
theorem State.trunkDead_keeps {P : State → Prop} {s : State} (h : P s)
    (held : s.resetHeld = true → P (s.withTrunkRx .dead))
    (idle : s.Running → s.trunk.rx ≠ .dead → s.onWire = none → P s.trunkDown)
    (busy : s.Running → s.trunk.rx ≠ .dead → ∀ g, s.onWire = some g → P (s.trunkDown.wireAborted.ownAbort g)) :
    P s.trunkDead := by
  by_cases dead : s.trunk.rx = .dead
  · rw [State.trunkDead_of_dead dead]
    exact h
  · cases running : s.resetHeld with
    | true =>
      rw [State.trunkDead_of_held running]
      exact held running
    | false =>
      rw [State.trunkDead_of_live running dead]
      cases wire : s.onWire with
      | none =>
        rw [State.abortTrunk_of_none (s.trunkDown_onWire.trans wire)]
        exact idle running dead wire
      | some g =>
        rw [State.abortTrunk_of_some (s.trunkDown_onWire.trans wire)]
        exact busy running dead g wire

/-- What a trunk line that comes live may do: nothing, or move the receiver alone while RESET_N is held low, or take the link UP
with or without the grant of a pin reset's RESTARTED. -/
theorem State.trunkLive_keeps {P : State → Prop} {s : State} (h : P s)
    (held : s.resetHeld = true → s.trunk.rx = .dead → P (s.withTrunkRx .hunt))
    (up : s.Running → s.trunk.rx = .dead → P ((s.withTrunkRx .hunt).grantRestarted.raiseTrunk .linkChange)) :
    P s.trunkLive := by
  by_cases dead : s.trunk.rx = .dead
  · cases running : s.resetHeld with
    | true =>
      rw [State.trunkLive_of_held running, if_pos dead]
      exact held running dead
    | false =>
      rw [State.trunkLive_of_dead running dead]
      exact up running dead
  · rw [State.trunkLive_of_live dead]
    exact h

/-! ### The owner of an aborted frame (R96, R111, R115, R131) -/

section
variable {s : State} {l : LevelId}

theorem State.reported_of_inService {r : ServiceRecord} {phase : SubState} (inService : s.inServiceAt l = some r)
    (h : r.phase = phase) : s.reported l r.ticket (· == phase) = some r := by
  simp [State.reported, inService, h]

theorem State.reported_of_absent {ticket : Byte} (absent : ∀ r, s.inServiceAt l = some r → r.ticket ≠ ticket)
    (inPhase : SubState → Bool) : s.reported l ticket inPhase = none := by
  unfold State.reported
  split
  · next r inService => simp [absent r inService]
  · rfl

theorem State.ownAbort_resend {r : ServiceRecord} (inService : s.inServiceAt l = some r) (h : r.phase = .resending) :
    s.ownAbort (.resend l r.ticket) = s.setInService l (some { r with phase := .resendWait, attempt := r.attempt - 1 }) := by
  simp only [State.ownAbort, State.reported_of_inService inService h]

theorem State.ownAbort_held {r : ServiceRecord} (inService : s.inServiceAt l = some r) (h : r.phase = .dispatching) :
    s.ownAbort (.dispatch l (some r.ticket)) = (s.setInService l none).abortReturn r.record := by
  simp only [State.ownAbort, State.reported_of_inService inService h]

theorem State.ownAbort_posted {r : Record} (inTransmission : s.levelUnit.inTransmission = some r) :
    s.ownAbort (.dispatch l none) = (s.setLevelUnit { s.levelUnit with inTransmission := none }).abortReturn r := by
  simp only [State.ownAbort, inTransmission]

theorem State.ownAbort_posted_absent (absent : s.levelUnit.inTransmission = none) : s.ownAbort (.dispatch l none) = s := by
  simp only [State.ownAbort, absent]

theorem State.ownAbort_absent {ticket : Byte} (absent : ∀ r, s.inServiceAt l = some r → r.ticket ≠ ticket) :
    s.ownAbort (.resend l ticket) = s ∧ s.ownAbort (.dispatch l (some ticket)) = s := by
  simp only [State.ownAbort, State.reported_of_absent absent, and_self]

end

/-- Settles O7: the receiver is DEAD or not; as it comes live a pin reset's RESTARTED is granted if it waits and the transmitter is
IDLE; as it goes dead each class of frame has its own response. -/
theorem trunkLineEventsAbortTheFrame : Obligations.TrunkLineEventsAbortTheFrame := by
  unfold Obligations.TrunkLineEventsAbortTheFrame
  refine ⟨fun s _ dead => congrArg Host.Outcome.next (State.trunkDead_of_dead dead), fun s running dead waits => ?ungranted,
    fun s x f n running dead restarted power idle isNotice => ?granted,
    fun s _ live => congrArg Host.Outcome.next (State.trunkLive_of_live live),
    fun s down now running live isDown isNow => ?dead⟩
  case ungranted =>
    refine congrArg Host.Outcome.next ((State.trunkLive_of_dead running dead).trans ?_)
    have none : (s.withTrunkRx .hunt).trunkFree = false ∨ (s.withTrunkRx .hunt).notices.powerWaits = false := by
      refine waits.symm.imp (fun busy => ?_) fun noPower => ?_
      · simpa [State.trunkFree, State.linkUp, Receiver.live, Option.isSome_iff_ne_none] using busy
      · refine Bool.eq_false_iff.mpr (mt State.powerWaits_eq_true_iff.mp ?_)
        rintro ⟨x, latched, power⟩
        exact noPower x latched power
    rw [State.grantRestarted_of_none none]
    rfl
  case granted =>
    refine congrArg Host.Outcome.next ((State.trunkLive_of_dead running dead).trans (congrArg (State.raiseTrunk · .linkChange) ?_))
    have free : (s.withTrunkRx .hunt).trunkFree = true := by simp [State.trunkFree, State.linkUp, Receiver.live, idle]
    have waits : (s.withTrunkRx .hunt).notices.powerWaits = true := State.powerWaits_eq_true_iff.mpr ⟨x, restarted, power⟩
    rw [State.grantRestarted_of_waiting free waits]
    rcases isNotice with ⟨returned, rfl, rfl⟩ | ⟨returned, rfl⟩
    · rw [State.grantNotice_restarted (s := s.withTrunkRx .hunt) returned restarted, power]
      rfl
    · simp only [State.grantNotice, show (s.withTrunkRx .hunt).notices.returned = some f from returned]
      rfl
  case dead =>
    have aborts : ∀ {g : GrantedFrame}, s.onWire = some g → exec (.lineGoesDead .trunk) s = .next (now.ownAbort g) := by
      intro g wire
      subst isNow isDown
      exact congrArg Host.Outcome.next ((State.trunkDead_of_live running live).trans
        (State.abortTrunk_of_some (s.trunkDown_onWire.trans wire)))
    have inService : ∀ l, now.inServiceAt l = s.inServiceAt l := by
      subst isNow isDown
      exact s.trunkDown_inServiceAt
    have levelUnit : now.levelUnit = s.levelUnit := by
      subst isNow isDown
      exact s.trunkDown_levelUnit
    refine ⟨fun wire => ?none, aborts, fun frame => aborts, fun frame => aborts, fun l r wire found phase => ?resend,
      fun l r wire found phase => ?held, fun l r wire found => ?posted, fun l ticket wire absent => ?absent,
      fun l wire absent => ?postedAbsent⟩
    case none =>
      subst isDown
      exact congrArg Host.Outcome.next ((State.trunkDead_of_live running live).trans
        (State.abortTrunk_of_none (s.trunkDown_onWire.trans wire)))
    case resend => rw [aborts wire, State.ownAbort_resend ((inService l).trans found) phase]
    case held => rw [aborts wire, State.ownAbort_held ((inService l).trans found) phase]
    case posted => rw [aborts wire, State.ownAbort_posted ((congrArg LevelUnit.inTransmission levelUnit).trans found)]
    case absent =>
      obtain ⟨resend, dispatch⟩ := State.ownAbort_absent (s := now) (l := l) (ticket := ticket) (by rwa [inService l])
      rcases wire with wire | wire
      · rw [aborts wire, resend]
      · rw [aborts wire, dispatch]
    case postedAbsent =>
      rw [aborts wire, State.ownAbort_posted_absent ((congrArg LevelUnit.inTransmission levelUnit).trans absent)]

/-! ### RESET_N falls and is released (R155, R156) -/

theorem Receiver.ignoreFrames_eq (r : Receiver) : r.ignoreFrames = if r = .dead then .dead else .hunt := by
  cases r <;> rfl

theorem FieldTransmitter.cutOff_eq_endedWith (tx : FieldTransmitter) : tx.cutOff = tx.endedWith .idle := by
  rw [FieldTransmitter.cutOff, FieldTransmitter.endedWith]
  cases tx.sending <;> rfl

theorem TrunkTransmitter.cutOff_eq_endedWith (tx : TrunkTransmitter) : tx.cutOff = tx.endedWith .idle := by
  rw [TrunkTransmitter.cutOff, TrunkTransmitter.endedWith]
  cases tx.sending <;> rfl

/-- The chapters' initial values, unit by unit; the trunk line as it is judged decides whether RESTARTED is granted. -/
theorem State.released_eq_pinReset (lines : LineJudgement) (waiting : List Instr) :
    State.released lines waiting = pinReset lines waiting := by
  unfold State.released pinReset
  simp only [tabulate_const]
  cases up : lines.trunk with
  | false =>
    rw [State.grantRestarted_of_none (.inl (by simp [State.trunkFree, State.linkUp, State.initialised, TrunkPort.initial,
      judged, up, Receiver.live]))]
    simp only [State.initialised, up]
    rfl
  | true =>
    rw [State.grantRestarted_of_waiting (by simp [State.trunkFree, State.linkUp, State.initialised, TrunkPort.initial,
      judged, up, Receiver.live]) rfl, State.grantNotice_restarted (x := { cause := .power, tag := 0 }) rfl rfl]
    simp only [State.initialised, up]
    rfl

/-- Settles O3: while the pin falls each transmitter and receiver is cut off by itself; the release is `released_eq_pinReset`. -/
theorem pinResetGivesTheInitialState : Obligations.PinResetGivesTheInitialState := by
  unfold Obligations.PinResetGivesTheInitialState
  refine ⟨fun s => ?falls, fun lines s held => ?released, fun lines s running => ?unheld⟩
  case falls =>
    simp only [exec, execResetNLow, FieldPort.hold, Receiver.ignoreFrames_eq, FieldTransmitter.cutOff_eq_endedWith,
      TrunkTransmitter.cutOff_eq_endedWith]
  case released => rw [exec, execResetNRelease, if_pos held, State.released_eq_pinReset]
  case unheld => rw [exec, execResetNRelease, if_neg (by simp [running])]

end Sys2Proof.Machine
end

section
/-!
What a command can do, said once: `Effect` lists the states that a command may give while RESET_N is not held low, each with the
conditions under which it gives them, `Transition` adds the pin and the lines, and `exec_transition` says that this is all. The
statements on what every step keeps take a transition apart and never a command's meaning.
-/

namespace Sys2Proof.Machine

/-- The requester that a port is (R49). -/
abbrev requesterOf (p : PortId) : Requester := p.castLE (by decide)

/-- What a command may do while RESET_N is not held low. -/
inductive Effect (s : State) : State → Prop
  | nothing : Effect s s
  | fieldSymbols (p : PortId) (symbols : List Symbol) : Effect s (s.fieldArrival p symbols)
  | trunkSymbols (symbols : List Symbol) : Effect s (s.trunkArrival symbols)
  | pauseEnds : Effect s s.takeResume
  | portEventStarts (p : PortId) (e : Event) (rest : List Event) (may : s.mayClassify = true)
      (waiting : (look s.ports p).received = e :: rest) :
      Effect s ((s.setPort p { look s.ports p with received := rest }).setClassifier
        { s.classifier with inFlight := some (s.flight (requesterOf p) e none), pointer := requesterOf p + 1 })
  | injectionStarts (i : InjectedEvent) (r : Requester) (may : s.mayClassify = true) (waiting : s.classifier.injection = some i) :
      Effect s (s.setClassifier
        { inFlight := some (s.flight r i.event (some i.reply)), pointer := r + 1, injection := none })
  | classificationEnds (f : FlightEvent) (inFlight : s.classifier.inFlight = some f) : Effect s (s.completeFlight f)
  | swapLands : Effect s s.landSwap
  | copySteps (progress : CopyProgress) (r : PendingReply) (copying : s.table.operation = .copying progress r) :
      Effect s (s.setTable { s.table.copyItem progress with operation := .copying progress.next r })
  | copyEnds (r : PendingReply) (copying : s.table.operation = .copying .finished r) :
      Effect s ((s.setTable { s.table with operation := .idle }).produceReply r.slot
        { tag := r.tag, op := opCopyBank, status := .ok, data := [bankCode s.table.standby, s.table.generation] })
  | releaseStarts (p : PortId) (q : ReleaseRequest) (rest : List ReleaseRequest) (waiting : (look s.ports p).releases = q :: rest)
      (may : (look s.ports p).mayStart = true) :
      Effect s (s.setPort p { look s.ports p with
        headMarked := true, tx := { (look s.ports p).tx with sending := some (releaseFrame q) } })
  | releaseEnds (p : PortId) : Effect s (s.setPort p (look s.ports p).released)
  | replyGranted (r : ProducedReply) (rest : List ProducedReply) (free : s.trunkFree = true) (ready : s.trunk.replies = r :: rest) :
      Effect s (s.send .reply (replyFrame r.reply))
  | noticeGranted (free : s.trunkFree = true) : Effect s s.grantNotice
  | resendGranted (l : LevelId) (r : ServiceRecord) (may : s.eventsGrantable = true) (inService : s.inServiceAt l = some r)
      (waits : r.phase = .resendWait) :
      Effect s ((s.setInService l (some { r with phase := .resending, attempt := r.attempt + 1 })).send (.resend l r.ticket)
        (upEventFrame r.record r.ticket (r.attempt + 1)))
  | postedGranted (l : LevelId) (r : Record) (rest : List Record) (may : s.eventsGrantable = true)
      (head : (s.levelAt l).queue = r :: rest) (posted : r.kind = .posted) :
      Effect s ((s.setLevel l { s.levelAt l with queue := rest }).grantPosted l r)
  | heldGranted (l : LevelId) (r : Record) (rest : List Record) (may : s.eventsGrantable = true)
      (head : (s.levelAt l).queue = r :: rest) (held : r.kind = .held) (free : s.inServiceAt l = none) :
      Effect s ((s.setLevel l { s.levelAt l with queue := rest }).grantHeld l r s.newTicket)
  | replyEnds (wire : s.onWire = some .reply) : Effect s s.trunkSent.replySent
  | noticeEnds (f : NoticeFrame) (cancelled : Bool) (wire : s.onWire = some (.notice f cancelled)) : Effect s s.trunkSent
  | postedEnds (l : LevelId) (wire : s.onWire = some (.dispatch l none)) : Effect s s.trunkSent.postedSent
  | heldEnds (l : LevelId) (ticket : Byte) (wire : s.onWire = some (.dispatch l (some ticket))) :
      Effect s (s.trunkSent.awaitAfter l ticket (· == .dispatching))
  | resendEnds (l : LevelId) (ticket : Byte) (wire : s.onWire = some (.resend l ticket)) :
      Effect s (s.trunkSent.awaitAfter l ticket (· == .resending))
  | timerResends (l : LevelId) (r : ServiceRecord) (units : Byte) (inService : s.inServiceAt l = some r)
      (timed : r.phase = .awaiting (some units))
      (remain : r.attempt.toNat < (s.levelAt l).settings.retries.toNat + 1) :
      Effect s (s.setInService l (some { r with phase := .resendWait }))
  | timerLapses (l : LevelId) (r : ServiceRecord) (inService : s.inServiceAt l = some r) : Effect s (s.retire l r .lapsed)
  | answered (q : QueuedRequest) (rest : List QueuedRequest) (status : Status) (data : List Byte) (head : s.Head q rest) :
      Effect s (s.answered q rest status data)
  | itemRead (q : QueuedRequest) (rest : List QueuedRequest) (data : List Byte) (id : BankId) (item : ItemName) (clear : Bool)
      (head : s.Head q rest) :
      Effect s ((s.setTable (s.table.readClear id item clear)).answered q rest .ok data)
  | entrySet (q : QueuedRequest) (rest : List QueuedRequest) (data : List Byte) (i : EntryId) (d : Option Definition)
      (head : s.Head q rest) (idle : s.table.operation = .idle)
      (legal : ∀ x ∈ d, writeEntryReason q.operands = none ∧ x = definitionOf q.operands) :
      Effect s ((s.setTable (s.table.setBank s.table.standby ((s.table.bank s.table.standby).setEntry i d))).answered q rest .ok
        data)
  | defaultSet (q : QueuedRequest) (rest : List QueuedRequest) (data : List Byte) (d : DefaultRecord) (head : s.Head q rest)
      (idle : s.table.operation = .idle) :
      Effect s ((s.setTable (s.table.setBank s.table.standby { s.table.bank s.table.standby with defaultRecord := d })).answered
        q rest .ok data)
  | copyStarts (q : QueuedRequest) (rest : List QueuedRequest) (head : s.Head q rest) (idle : s.table.operation = .idle) :
      Effect s ((s.setTable { s.table with operation := .copying (.entry 0) q.later }).deferred q rest)
  | swapAsked (q : QueuedRequest) (rest : List QueuedRequest) (head : s.Head q rest) (idle : s.table.operation = .idle) :
      Effect s ((s.setTable { s.table with operation := .swapPending q.later }).deferred q rest).landSwap
  | countsCleared (q : QueuedRequest) (rest : List QueuedRequest) (data : List Byte) (l : LevelId) (head : s.Head q rest) :
      Effect s ((s.setLevel l (s.levelAt l).clearCounts).answered q rest .ok data)
  | levelSet (q : QueuedRequest) (rest : List QueuedRequest) (l : LevelId) (settings : LevelSettings) (head : s.Head q rest)
      (legal : settingsOperand q.operands = some settings) (room : (s.levelAt l).queue.length ≤ settings.limit.toNat) :
      Effect s ((s.setLevel l { s.levelAt l with settings := settings }).answered q rest .ok [])
  | orderSet (q : QueuedRequest) (rest : List QueuedRequest) (data : List Byte) (mode : PriorityMode) (lowest : LevelId)
      (nesting : Nesting) (head : s.Head q rest) :
      Effect s ((s.setService { s.service with mode := mode, lowest := lowest, nesting := nesting }).answered q rest .ok data)
  | maskSet (q : QueuedRequest) (rest : List QueuedRequest) (data : List Byte) (mask : BitVec 16) (head : s.Head q rest) :
      Effect s ((s.setLevelUnit (s.levelUnit.withMask mask)).answered q rest .ok data)
  | flushed (q : QueuedRequest) (rest : List QueuedRequest) (data : List Byte) (l : LevelId) (head : s.Head q rest) :
      Effect s ((s.flush l).answered q rest .ok data)
  | poolRead (q : QueuedRequest) (rest : List QueuedRequest) (data : List Byte) (head : s.Head q rest) :
      Effect s ((s.setLevelUnit { s.levelUnit with lowWater := byteOf s.freeRecords, refusals := 0 }).answered q rest .ok data)
  | portRead (q : QueuedRequest) (rest : List QueuedRequest) (data : List Byte) (p : PortId) (head : s.Head q rest) :
      Effect s ((s.setPort p { look s.ports p with conditions := 0 }).answered q rest .ok data)
  | portSet (q : QueuedRequest) (rest : List QueuedRequest) (data : List Byte) (p : PortId) (enabled notices : Bool)
      (head : s.Head q rest) :
      Effect s ((s.setPort p ((look s.ports p).configure enabled notices)).answered q rest .ok data)
  | trunkRead (q : QueuedRequest) (rest : List QueuedRequest) (data : List Byte) (head : s.Head q rest) :
      Effect s ((s.setTrunk { s.trunk with conditions := 0, strays := 0 }).answered q rest .ok data)
  | conditionsSet (q : QueuedRequest) (rest : List QueuedRequest) (slots : Vector ConditionSlot 32) (head : s.Head q rest) :
      Effect s (({ s with conditions := slots } : State).answered q rest .ok [])
  | noticesSet (q : QueuedRequest) (rest : List QueuedRequest) (data : List Byte) (enables : BitVec 5) (head : s.Head q rest) :
      Effect s ((s.enableNotices enables).answered q rest .ok data)
  | injected (q : QueuedRequest) (rest : List QueuedRequest) (e : Event) (head : s.Head q rest)
      (free : s.classifier.injection = none) (length : injectLengthOk q.operands = true)
      (legal : injectedEvent q.operands = some e) :
      Effect s ((s.setClassifier { s.classifier with injection := some { event := e, reply := q.later } }).deferred q rest)
  | trafficReset (q : QueuedRequest) (rest : List QueuedRequest) (head : s.Head q rest) :
      Effect s ((s.setManagement { s.management with queue := rest }).trafficReset.answer q .ok [])
  | fullReset (q : QueuedRequest) (rest : List QueuedRequest) (head : s.Head q rest) : Effect s (s.fullReset q.tag)

/-- What a command may do. -/
inductive Transition (s : State) : State → Prop
  | waits : Transition s s
  | resetFalls : Transition s { s with
      resetHeld := true
      ports := tabulate fun p => (look s.ports p).hold
      trunk := { s.trunk with rx := s.trunk.rx.ignoreFrames, tx := s.trunk.tx.cutOff } }
  | resetReleased (lines : LineJudgement) : Transition s (State.released lines s.pending)
  | fieldLive (p : PortId) : Transition s (s.fieldLive p)
  | fieldDead (p : PortId) : Transition s (s.fieldDead p)
  | trunkLive : Transition s s.trunkLive
  | trunkDead : Transition s s.trunkDead
  | runs {t : State} (running : s.Running) (effect : Effect s t) : Transition s t

/-! ### Each command's effect -/

section
variable {s t : State}

theorem Effect.of_whenRunning {effect : State → State} (runs : s.Running → Effect s (effect s))
    (e : whenRunning s effect = .next t) : Transition s t :=
  whenRunning_keeps .waits (fun running => .runs running (runs running)) e

theorem Effect.of_executeHead {picks : QueuedRequest → Bool} {effect : QueuedRequest → State → State}
    (runs : ∀ q rest, s.Head q rest → Effect s (effect q (s.setManagement { s.management with queue := rest })))
    (e : (whenRunning s fun s => s.executeHead picks effect) = .next t) : Transition s t :=
  Effect.of_whenRunning (fun _ => State.executeHead_keeps .nothing fun q rest head _ => runs q rest head) e

/-- An operation of a fixed operand length, of whose effect only the case of that length is left. -/
theorem Effect.of_executeOp {op : Byte} {oplen : Nat} {effect : QueuedRequest → State → State}
    (runs : ∀ q rest, s.Head q rest → Effect s (effect q (s.setManagement { s.management with queue := rest })))
    (e : (whenRunning s fun s => s.executeOp op oplen effect) = .next t) : Transition s t :=
  Effect.of_whenRunning (fun _ => State.executeOp_keeps .nothing (fun q rest head => .answered q rest _ _ head)
    fun q rest head _ _ => runs q rest head) e

theorem startFor_effect (may : s.mayClassify = true) (r : Requester) : Effect s (s.startFor r) := by
  unfold State.startFor
  split
  · next p origin =>
    split
    · exact .nothing
    · next e rest waiting =>
      obtain rfl := portOf_eq_some origin
      exact .portEventStarts p e rest may waiting
  · split
    · exact .nothing
    · next i waiting => exact .injectionStarts i r may waiting

theorem State.inServiceAt_of_waitsForResend {l : LevelId} (h : s.waitsForResend l = true) :
    ∃ r, s.inServiceAt l = some r ∧ r.phase = .resendWait := by
  unfold State.waitsForResend at h
  split at h
  · next r inService => exact ⟨r, inService, beq_iff_eq.mp h⟩
  · cases h

theorem SubState.timed_iff {phase : SubState} : phase.timed = true ↔ ∃ units, phase = .awaiting (some units) := by
  cases phase with
  | awaiting timer => cases timer <;> simp [SubState.timed]
  | dispatching => simp [SubState.timed]
  | resendWait => simp [SubState.timed]
  | resending => simp [SubState.timed]

theorem dispatchFrom_effect (may : s.eventsGrantable = true) {l : LevelId} (candidate : s.candidate l = true) :
    Effect s (s.dispatchFrom l) := by
  unfold State.dispatchFrom
  split
  · exact .nothing
  · next r rest head =>
    split
    · next posted => exact .postedGranted l r rest may head posted
    · next held =>
      have mayGo : s.headMayGo l = true := by
        simp only [State.candidate, Bool.and_eq_true] at candidate
        exact candidate.1.2
      refine .heldGranted l r rest may head held ?_
      simpa [State.headMayGo, head, held] using mayGo

theorem expire_effect {l : LevelId} {r : ServiceRecord} (inService : s.inServiceAt l = some r) (timed : r.phase.timed = true) :
    Effect s (s.expire l r) := by
  obtain ⟨units, phase⟩ := SubState.timed_iff.mp timed
  unfold State.expire
  split_ifs with remain
  · exact .timerResends l r units inService phase remain
  · exact .timerLapses l r inService

/-- A write whose checks have passed, by what it makes of the STANDBY bank. -/
theorem writeStandby_effect {q : QueuedRequest} {rest : List QueuedRequest} (head : s.Head q rest) {edit : Bank → Bank}
    {data : List Byte}
    (edited : s.table.operation = .idle → ∀ data, Effect s ((s.setTable (s.table.setBank s.table.standby
      (edit (s.table.bank s.table.standby)))).answered q rest .ok data)) :
    Effect s ((s.setManagement { s.management with queue := rest }).writeStandby q edit data) := by
  unfold State.writeStandby
  split_ifs with idle
  · exact edited (beq_iff_eq.mp idle) _
  · exact .answered q rest _ _ head

theorem exec_lineTransition {link : Link} :
    (exec (.lineComesLive link) s = .next t → Transition s t) ∧ (exec (.lineGoesDead link) s = .next t → Transition s t) := by
  cases link with
  | field p =>
    constructor
    · rintro ⟨⟩
      exact .fieldLive p
    · rintro ⟨⟩
      exact .fieldDead p
  | trunk =>
    constructor
    · rintro ⟨⟩
      exact .trunkLive
    · rintro ⟨⟩
      exact .trunkDead

end

/-! ### Every command -/

section
variable {s t : State}

theorem execReadEntry_transition (e : execReadEntry s = .next t) : Transition s t := by
  unfold execReadEntry at e
  refine Effect.of_executeOp (fun q rest head => ?_) e
  split
  · exact .itemRead q rest _ _ _ _ head
  · exact .answered q rest _ _ head

theorem execWriteEntry_transition (e : execWriteEntry s = .next t) : Transition s t := by
  unfold execWriteEntry at e
  refine Effect.of_executeOp (fun q rest head => ?_) e
  split
  · exact .answered q rest _ _ head
  · next legal =>
    refine writeStandby_effect head fun idle data => .entrySet q rest data _ _ head idle ?_
    rintro x ⟨⟩
    exact ⟨legal, rfl⟩

theorem execClearEntry_transition (e : execClearEntry s = .next t) : Transition s t := by
  unfold execClearEntry at e
  refine Effect.of_executeOp (fun q rest head => ?_) e
  split_ifs
  · exact .answered q rest _ _ head
  · exact writeStandby_effect head fun idle data => .entrySet q rest data _ none head idle (by simp)

theorem execWriteDefault_transition (e : execWriteDefault s = .next t) : Transition s t := by
  unfold execWriteDefault at e
  refine Effect.of_executeOp (fun q rest head => ?_) e
  split
  · exact .answered q rest _ _ head
  · exact writeStandby_effect head fun idle data => .defaultSet q rest data _ head idle

theorem execCopyBank_transition (e : execCopyBank s = .next t) : Transition s t := by
  unfold execCopyBank at e
  refine Effect.of_executeOp (fun q rest head => ?_) e
  split_ifs with idle
  · exact .copyStarts q rest head (beq_iff_eq.mp idle)
  · exact .answered q rest _ _ head

theorem execSwapBanks_transition (e : execSwapBanks s = .next t) : Transition s t := by
  unfold execSwapBanks at e
  refine Effect.of_executeOp (fun q rest head => ?_) e
  split_ifs with idle
  · exact .swapAsked q rest head (beq_iff_eq.mp idle)
  · exact .answered q rest _ _ head

theorem execReadLevel_transition (e : execReadLevel s = .next t) : Transition s t := by
  unfold execReadLevel at e
  refine Effect.of_executeOp (fun q rest head => ?_) e
  split
  · unfold State.readLevelOf
    split_ifs
    · exact .countsCleared q rest _ _ head
    · exact .answered q rest _ _ head
  · exact .answered q rest _ _ head

theorem execWriteLevel_transition (e : execWriteLevel s = .next t) : Transition s t := by
  unfold execWriteLevel at e
  refine Effect.of_executeOp (fun q rest head => ?_) e
  split
  · next legal =>
    unfold State.writeLevelOf
    split_ifs with below
    · exact .answered q rest _ _ head
    · exact .levelSet q rest _ _ head legal (Nat.not_lt.mp below)
  · exact .answered q rest _ _ head

theorem execSetOrder_transition (e : execSetOrder s = .next t) : Transition s t := by
  unfold execSetOrder at e
  refine Effect.of_executeOp (fun q rest head => ?_) e
  split
  · exact .orderSet q rest _ _ _ _ head
  · exact .answered q rest _ _ head

theorem execFlushLevel_transition (e : execFlushLevel s = .next t) : Transition s t := by
  unfold execFlushLevel at e
  refine Effect.of_executeOp (fun q rest head => ?_) e
  split
  · next l _ =>
    have untouched : (s.flush l).management = s.management := (flush_touches s l).management (by decide)
    rw [State.flush_setManagement, ← untouched, State.answer_of_head]
    exact .flushed q rest _ l head
  · exact .answered q rest _ _ head

theorem execReadPort_transition (e : execReadPort s = .next t) : Transition s t := by
  unfold execReadPort at e
  refine Effect.of_executeOp (fun q rest head => ?_) e
  split
  · exact .portRead q rest _ _ head
  · exact .answered q rest _ _ head

theorem execWritePort_transition (e : execWritePort s = .next t) : Transition s t := by
  unfold execWritePort at e
  refine Effect.of_executeOp (fun q rest head => ?_) e
  split
  · exact .portSet q rest _ _ _ _ head
  · exact .answered q rest _ _ head

theorem execReadCondition_transition (e : execReadCondition s = .next t) : Transition s t := by
  unfold execReadCondition at e
  refine Effect.of_executeOp (fun q rest head => ?_) e
  split
  · exact .answered q rest _ _ head
  · exact .answered q rest _ _ head

theorem execClearCondition_transition (e : execClearCondition s = .next t) : Transition s t := by
  unfold execClearCondition at e
  refine Effect.of_executeOp (fun q rest head => ?_) e
  split_ifs
  · exact .conditionsSet q rest _ head
  · split
    · exact .conditionsSet q rest _ head
    · exact .answered q rest _ _ head

theorem execInject_transition (e : execInject s = .next t) : Transition s t := by
  unfold execInject at e
  refine Effect.of_executeHead (fun q rest head => ?_) e
  split_ifs with length
  · split
    · next event legal =>
      unfold State.injectEvent
      split
      · exact .answered q rest _ _ head
      · next free => exact .injected q rest event head free length legal
    · exact .answered q rest _ _ head
  · exact .answered q rest _ _ head

theorem execNoticeEnable_transition (e : execNoticeEnable s = .next t) : Transition s t := by
  unfold execNoticeEnable at e
  refine Effect.of_executeOp (fun q rest head => ?_) e
  split_ifs
  · exact .answered q rest _ _ head
  · exact .noticesSet q rest _ _ head

theorem answerBadReset_effect {q : QueuedRequest} {rest : List QueuedRequest} (head : s.Head q rest) :
    Effect s ((s.setManagement { s.management with queue := rest }).answerBadReset q) := by
  unfold State.answerBadReset
  split_ifs
  · exact .answered q rest _ _ head
  · exact .answered q rest _ _ head

theorem execResetTraffic_transition (e : execResetTraffic s = .next t) : Transition s t := by
  unfold execResetTraffic at e
  refine Effect.of_executeHead (fun q rest head => ?_) e
  split_ifs
  · exact .trafficReset q rest head
  · exact answerBadReset_effect head

theorem execResetFull_transition (e : execResetFull s = .next t) : Transition s t := by
  unfold execResetFull at e
  refine Effect.of_executeHead (fun q rest head => ?_) e
  split_ifs
  · exact .fullReset q rest head
  · exact answerBadReset_effect head

theorem execClassificationStart_transition (e : execClassificationStart s = .next t) : Transition s t := by
  unfold execClassificationStart at e
  refine Effect.of_whenRunning (fun _ => ?_) e
  split_ifs with may
  · split
    · exact startFor_effect may _
    · exact .nothing
  · exact .nothing

theorem execClassificationCompletes_transition (e : execClassificationCompletes s = .next t) : Transition s t := by
  unfold execClassificationCompletes at e
  refine Effect.of_whenRunning (fun _ => ?_) e
  split
  · next f inFlight => exact .classificationEnds f inFlight
  · exact .nothing

theorem execCopyStep_transition (e : execCopyStep s = .next t) : Transition s t := by
  unfold execCopyStep at e
  refine Effect.of_whenRunning (fun _ => ?_) e
  split
  · next progress r copying => exact .copySteps progress r copying
  · exact .nothing
  · exact .nothing

theorem execCopyCompletes_transition (e : execCopyCompletes s = .next t) : Transition s t := by
  unfold execCopyCompletes at e
  refine Effect.of_whenRunning (fun _ => ?_) e
  split
  · next r copying => exact .copyEnds r copying
  iterate 4 exact .nothing

theorem execReleaseTransmissionStart_transition {p : PortId} (e : execReleaseTransmissionStart p s = .next t) :
    Transition s t := by
  unfold execReleaseTransmissionStart at e
  refine Effect.of_whenRunning (fun _ => ?_) e
  split
  · exact .nothing
  · next q rest waiting =>
    split_ifs with may
    · exact .releaseStarts p q rest waiting may
    · exact .nothing

theorem execReleaseCompletes_transition {p : PortId} (e : execReleaseCompletes p s = .next t) : Transition s t := by
  unfold execReleaseCompletes at e
  refine Effect.of_whenRunning (fun _ => ?_) e
  split_ifs
  · exact .releaseEnds p
  · exact .nothing

theorem execReplyGrant_transition (e : execReplyGrant s = .next t) : Transition s t := by
  unfold execReplyGrant at e
  refine Effect.of_whenRunning (fun _ => ?_) e
  split_ifs with free
  · split
    · next r rest ready => exact .replyGranted r rest free ready
    · exact .nothing
  · exact .nothing

theorem execNoticeGrant_transition (e : execNoticeGrant s = .next t) : Transition s t := by
  unfold execNoticeGrant at e
  refine Effect.of_whenRunning (fun _ => ?_) e
  split_ifs with may
  · simp only [Bool.and_eq_true] at may
    exact .noticeGranted may.1
  · exact .nothing

theorem execResendGrant_transition (e : execResendGrant s = .next t) : Transition s t := by
  unfold execResendGrant at e
  refine Effect.of_whenRunning (fun _ => ?_) e
  split_ifs with may
  · split
    · next l rest list =>
      have waits : l ∈ s.resendList := by simp [list]
      obtain ⟨r, inService, phase⟩ := State.inServiceAt_of_waitsForResend (List.mem_filter.mp waits).2
      simp only [State.resendFrom, inService]
      exact .resendGranted l r may inService phase
    · exact .nothing
  · exact .nothing

theorem execDispatchGrant_transition (e : execDispatchGrant s = .next t) : Transition s t := by
  unfold execDispatchGrant at e
  refine Effect.of_whenRunning (fun _ => ?_) e
  split_ifs with may
  · simp only [Bool.and_eq_true] at may
    split
    · next l top => exact dispatchFrom_effect may.1 (List.find?_some top)
    · exact .nothing
  · exact .nothing

theorem execReplyCompletes_transition (e : execReplyCompletes s = .next t) : Transition s t := by
  unfold execReplyCompletes at e
  refine Effect.of_whenRunning (fun _ => ?_) e
  split
  · next wire => exact .replyEnds wire
  iterate 4 exact .nothing

theorem execNoticeCompletes_transition (e : execNoticeCompletes s = .next t) : Transition s t := by
  unfold execNoticeCompletes at e
  refine Effect.of_whenRunning (fun _ => ?_) e
  split
  · next f cancelled wire => exact .noticeEnds f cancelled wire
  iterate 4 exact .nothing

theorem execFirstTransmissionEnds_transition (e : execFirstTransmissionEnds s = .next t) : Transition s t := by
  unfold execFirstTransmissionEnds at e
  refine Effect.of_whenRunning (fun _ => ?_) e
  split
  · next l wire => exact .postedEnds l wire
  · next l ticket wire => exact .heldEnds l ticket wire
  iterate 4 exact .nothing

theorem execResendEnds_transition (e : execResendEnds s = .next t) : Transition s t := by
  unfold execResendEnds at e
  refine Effect.of_whenRunning (fun _ => ?_) e
  split
  · next l ticket wire => exact .resendEnds l ticket wire
  iterate 4 exact .nothing

theorem execServiceTimerExpires_transition {l : LevelId} (e : execServiceTimerExpires l s = .next t) : Transition s t := by
  unfold execServiceTimerExpires at e
  refine Effect.of_whenRunning (fun _ => ?_) e
  split
  · next r inService =>
    split_ifs with timed
    · exact expire_effect inService timed
    · exact .nothing
  · exact .nothing

theorem execPauseTimerExpires_transition (e : execPauseTimerExpires s = .next t) : Transition s t := by
  unfold execPauseTimerExpires at e
  refine Effect.of_whenRunning (fun _ => ?_) e
  split
  · exact .pauseEnds
  · exact .nothing

theorem fieldArrival_transition {p : PortId} {symbols : List Symbol}
    (e : (whenRunning s fun s => s.fieldArrival p symbols) = .next t) : Transition s t :=
  Effect.of_whenRunning (effect := fun s => s.fieldArrival p symbols) (fun _ => .fieldSymbols p symbols) e

theorem trunkArrival_transition {symbols : List Symbol}
    (e : (whenRunning s fun s => s.trunkArrival symbols) = .next t) : Transition s t :=
  Effect.of_whenRunning (effect := fun s => s.trunkArrival symbols) (fun _ => .trunkSymbols symbols) e

theorem execSwapTakesEffect_transition (e : execSwapTakesEffect s = .next t) : Transition s t := by
  unfold execSwapTakesEffect at e
  exact Effect.of_whenRunning (fun _ => .swapLands) e

theorem execIdent_transition (e : execIdent s = .next t) : Transition s t := by
  unfold execIdent at e
  exact Effect.of_executeOp (fun q rest head => .answered q rest _ _ head) e

theorem execMaskLevels_transition (e : execMaskLevels s = .next t) : Transition s t := by
  unfold execMaskLevels at e
  refine Effect.of_executeOp (fun q rest head => ?_) e
  rw [State.setManagement_levelUnit, State.setLevelUnit_answer_of_head]
  exact .maskSet q rest _ _ head

theorem execReadTrunk_transition (e : execReadTrunk s = .next t) : Transition s t := by
  unfold execReadTrunk at e
  exact Effect.of_executeOp (fun q rest head => .trunkRead q rest _ head) e

theorem execReadPool_transition (e : execReadPool s = .next t) : Transition s t := by
  unfold execReadPool at e
  exact Effect.of_executeOp (fun q rest head => .poolRead q rest _ head) e

theorem execUnsupportedOp_transition (e : execUnsupportedOp s = .next t) : Transition s t := by
  unfold execUnsupportedOp at e
  exact Effect.of_executeHead (fun q rest head => .answered q rest _ _ head) e

/-- Whatever a command gives, it is one of the transitions. -/
theorem exec_transition {c : Instr} (e : exec c s = .next t) : Transition s t := by
  cases c with
  | resetNLow =>
    cases e
    exact .resetFalls
  | resetNRelease lines =>
    cases e
    split_ifs
    · exact .resetReleased lines
    · exact .waits
  | lineComesLive link => exact exec_lineTransition.1 e
  | lineGoesDead link => exact exec_lineTransition.2 e
  | event port node code cond spare seq payload =>
    rw [exec, execEvent] at e
    exact fieldArrival_transition e
  | badFrame port symbols =>
    rw [exec, execBadFrame] at e
    exact fieldArrival_transition e
  | badTrunkFrame symbols =>
    rw [exec, execBadTrunkFrame] at e
    exact trunkArrival_transition e
  | complete ticket outcome =>
    rw [exec, execComplete] at e
    exact trunkArrival_transition e
  | completeTop outcome =>
    rw [exec, execCompleteTop] at e
    exact trunkArrival_transition e
  | pause duration =>
    rw [exec, execPause] at e
    exact trunkArrival_transition e
  | resume =>
    rw [exec, execResume] at e
    exact trunkArrival_transition e
  | request tag op operands =>
    rw [exec, execRequest] at e
    exact trunkArrival_transition e
  | pauseTimerExpires => exact execPauseTimerExpires_transition e
  | classificationStart => exact execClassificationStart_transition e
  | classificationCompletes => exact execClassificationCompletes_transition e
  | swapTakesEffect => exact execSwapTakesEffect_transition e
  | copyStep => exact execCopyStep_transition e
  | copyCompletes => exact execCopyCompletes_transition e
  | releaseTransmissionStart port => exact execReleaseTransmissionStart_transition e
  | releaseCompletes port => exact execReleaseCompletes_transition e
  | replyGrant => exact execReplyGrant_transition e
  | noticeGrant => exact execNoticeGrant_transition e
  | resendGrant => exact execResendGrant_transition e
  | dispatchGrant => exact execDispatchGrant_transition e
  | replyCompletes => exact execReplyCompletes_transition e
  | noticeCompletes => exact execNoticeCompletes_transition e
  | firstTransmissionEnds => exact execFirstTransmissionEnds_transition e
  | resendEnds => exact execResendEnds_transition e
  | serviceTimerExpires level => exact execServiceTimerExpires_transition e
  | ident => exact execIdent_transition e
  | readEntry => exact execReadEntry_transition e
  | writeEntry => exact execWriteEntry_transition e
  | clearEntry => exact execClearEntry_transition e
  | writeDefault => exact execWriteDefault_transition e
  | copyBank => exact execCopyBank_transition e
  | swapBanks => exact execSwapBanks_transition e
  | readLevel => exact execReadLevel_transition e
  | writeLevel => exact execWriteLevel_transition e
  | setOrder => exact execSetOrder_transition e
  | maskLevels => exact execMaskLevels_transition e
  | flushLevel => exact execFlushLevel_transition e
  | readPort => exact execReadPort_transition e
  | writePort => exact execWritePort_transition e
  | readTrunk => exact execReadTrunk_transition e
  | readCondition => exact execReadCondition_transition e
  | clearCondition => exact execClearCondition_transition e
  | inject => exact execInject_transition e
  | readPool => exact execReadPool_transition e
  | noticeEnable => exact execNoticeEnable_transition e
  | resetTraffic => exact execResetTraffic_transition e
  | resetFull => exact execResetFull_transition e
  | unsupportedOp => exact execUnsupportedOp_transition e

/-- What every transition keeps, and the waiting commands play no part in, every step keeps. -/
theorem step_keeps {P : State → Prop} (unread : ∀ s waiting, P s → P (s.withPending waiting))
    (kept : ∀ s t, P s → Transition s t → P t) : ∀ s t : State, P s → step s = .next t → P t := by
  intro s t h e
  unfold step at e
  split at e
  · cases e
    exact h
  · exact kept _ _ (unread _ _ h) (exec_transition e)

end

end Sys2Proof.Machine
end

section
/-!
The parts that a transition's operations leave alone, in the form `simp` takes them: one statement per operation, from what the
operation touches.
-/

namespace Sys2Proof.Machine

variable (s : State)

@[simp] theorem State.answered_parts (q : QueuedRequest) (rest : List QueuedRequest) (status : Status) (data : List Byte) :
    (s.answered q rest status data).resetHeld = s.resetHeld ∧ (s.answered q rest status data).ports = s.ports ∧
    (s.answered q rest status data).classifier = s.classifier ∧ (s.answered q rest status data).table = s.table ∧
    (s.answered q rest status data).conditions = s.conditions ∧ (s.answered q rest status data).levelUnit = s.levelUnit ∧
    (s.answered q rest status data).service = s.service ∧ (s.answered q rest status data).notices = s.notices ∧
    (s.answered q rest status data).pending = s.pending :=
  ⟨rfl, rfl, rfl, rfl, rfl, rfl, rfl, rfl, rfl⟩

@[simp] theorem State.deferred_parts (q : QueuedRequest) (rest : List QueuedRequest) :
    (s.deferred q rest).resetHeld = s.resetHeld ∧ (s.deferred q rest).ports = s.ports ∧
    (s.deferred q rest).classifier = s.classifier ∧ (s.deferred q rest).table = s.table ∧
    (s.deferred q rest).conditions = s.conditions ∧ (s.deferred q rest).levelUnit = s.levelUnit ∧
    (s.deferred q rest).service = s.service ∧ (s.deferred q rest).trunk = s.trunk ∧ (s.deferred q rest).notices = s.notices ∧
    (s.deferred q rest).pending = s.pending :=
  ⟨rfl, rfl, rfl, rfl, rfl, rfl, rfl, rfl, rfl, rfl⟩

@[simp] theorem State.send_parts (g : GrantedFrame) (bytes : List Byte) :
    (s.send g bytes).resetHeld = s.resetHeld ∧ (s.send g bytes).ports = s.ports ∧
    (s.send g bytes).classifier = s.classifier ∧ (s.send g bytes).table = s.table ∧
    (s.send g bytes).conditions = s.conditions ∧ (s.send g bytes).levelUnit = s.levelUnit ∧
    (s.send g bytes).service = s.service ∧ (s.send g bytes).notices = s.notices ∧
    (s.send g bytes).management = s.management ∧ (s.send g bytes).pending = s.pending :=
  ⟨rfl, rfl, rfl, rfl, rfl, rfl, rfl, rfl, rfl, rfl⟩

@[simp] theorem State.produceReply_parts (i : ReplySlotId) (r : Reply) :
    (s.produceReply i r).resetHeld = s.resetHeld ∧ (s.produceReply i r).ports = s.ports ∧
    (s.produceReply i r).classifier = s.classifier ∧ (s.produceReply i r).table = s.table ∧
    (s.produceReply i r).conditions = s.conditions ∧ (s.produceReply i r).levelUnit = s.levelUnit ∧
    (s.produceReply i r).service = s.service ∧ (s.produceReply i r).notices = s.notices ∧
    (s.produceReply i r).pending = s.pending :=
  ⟨rfl, rfl, rfl, rfl, rfl, rfl, rfl, rfl, rfl⟩

@[simp] theorem State.landSwap_parts :
    s.landSwap.resetHeld = s.resetHeld ∧ s.landSwap.ports = s.ports ∧ s.landSwap.classifier = s.classifier ∧
    s.landSwap.conditions = s.conditions ∧ s.landSwap.levelUnit = s.levelUnit ∧ s.landSwap.service = s.service ∧
    s.landSwap.notices = s.notices ∧ s.landSwap.pending = s.pending := by
  have same := landSwap_touches s
  exact ⟨same.resetHeld (by decide), same.ports (by decide), same.classifier (by decide), same.conditions (by decide),
    same.levelUnit (by decide), same.service (by decide), same.notices (by decide), same.pending⟩

@[simp] theorem State.grantNotice_parts :
    s.grantNotice.resetHeld = s.resetHeld ∧ s.grantNotice.ports = s.ports ∧ s.grantNotice.classifier = s.classifier ∧
    s.grantNotice.table = s.table ∧ s.grantNotice.conditions = s.conditions ∧ s.grantNotice.levelUnit = s.levelUnit ∧
    s.grantNotice.service = s.service ∧ s.grantNotice.management = s.management ∧ s.grantNotice.pending = s.pending := by
  have same := grantNotice_touches s
  exact ⟨same.resetHeld (by decide), same.ports (by decide), same.classifier (by decide), same.table (by decide),
    same.conditions (by decide), same.levelUnit (by decide), same.service (by decide), same.management (by decide), same.pending⟩

@[simp] theorem State.trunkSent_parts :
    s.trunkSent.resetHeld = s.resetHeld ∧ s.trunkSent.ports = s.ports ∧ s.trunkSent.classifier = s.classifier ∧
    s.trunkSent.table = s.table ∧ s.trunkSent.conditions = s.conditions ∧ s.trunkSent.levelUnit = s.levelUnit ∧
    s.trunkSent.service = s.service ∧ s.trunkSent.notices = s.notices ∧ s.trunkSent.management = s.management ∧
    s.trunkSent.pending = s.pending :=
  ⟨rfl, rfl, rfl, rfl, rfl, rfl, rfl, rfl, rfl, rfl⟩

@[simp] theorem State.fieldArrival_parts (p : PortId) (symbols : List Symbol) :
    (s.fieldArrival p symbols).resetHeld = s.resetHeld ∧ (s.fieldArrival p symbols).classifier = s.classifier ∧
    (s.fieldArrival p symbols).table = s.table ∧ (s.fieldArrival p symbols).conditions = s.conditions ∧
    (s.fieldArrival p symbols).levelUnit = s.levelUnit ∧ (s.fieldArrival p symbols).service = s.service ∧
    (s.fieldArrival p symbols).trunk = s.trunk ∧ (s.fieldArrival p symbols).management = s.management ∧
    (s.fieldArrival p symbols).pending = s.pending := by
  have same := fieldArrival_touches s p symbols
  exact ⟨same.resetHeld (by decide), same.classifier (by decide), same.table (by decide), same.conditions (by decide),
    same.levelUnit (by decide), same.service (by decide), same.trunk (by decide), same.management (by decide), same.pending⟩

@[simp] theorem State.retire_parts (l : LevelId) (r : ServiceRecord) (o : RetireOutcome) :
    (s.retire l r o).resetHeld = s.resetHeld ∧ (s.retire l r o).classifier = s.classifier ∧
    (s.retire l r o).table = s.table ∧ (s.retire l r o).conditions = s.conditions ∧ (s.retire l r o).trunk = s.trunk ∧
    (s.retire l r o).management = s.management ∧ (s.retire l r o).pending = s.pending := by
  have same := retire_touches s l r o
  exact ⟨same.resetHeld (by decide), same.classifier (by decide), same.table (by decide),
    same.conditions (by decide), same.trunk (by decide), same.management (by decide), same.pending⟩

@[simp] theorem State.flush_parts (l : LevelId) :
    (s.flush l).resetHeld = s.resetHeld ∧ (s.flush l).classifier = s.classifier ∧ (s.flush l).table = s.table ∧
    (s.flush l).conditions = s.conditions ∧ (s.flush l).trunk = s.trunk ∧ (s.flush l).management = s.management ∧
    (s.flush l).pending = s.pending := by
  have same := flush_touches s l
  exact ⟨same.resetHeld (by decide), same.classifier (by decide), same.table (by decide),
    same.conditions (by decide), same.trunk (by decide), same.management (by decide), same.pending⟩

@[simp] theorem State.completeFlight_parts (f : FlightEvent) :
    (s.completeFlight f).resetHeld = s.resetHeld ∧ (s.completeFlight f).service = s.service ∧
    (s.completeFlight f).pending = s.pending := by
  have same := completeFlight_touches s f
  exact ⟨same.resetHeld (by decide), same.service (by decide), same.pending⟩

@[simp] theorem State.trunkArrival_parts (symbols : List Symbol) :
    (s.trunkArrival symbols).resetHeld = s.resetHeld ∧ (s.trunkArrival symbols).classifier = s.classifier ∧
    (s.trunkArrival symbols).table = s.table ∧ (s.trunkArrival symbols).conditions = s.conditions ∧
    (s.trunkArrival symbols).pending = s.pending := by
  have same := trunkArrival_touches s symbols
  exact ⟨same.resetHeld (by decide), same.classifier (by decide),
    same.table (by decide), same.conditions (by decide), same.pending⟩

@[simp] theorem State.serve_parts (l : LevelId) :
    (s.serve l).resetHeld = s.resetHeld ∧ (s.serve l).ports = s.ports ∧ (s.serve l).classifier = s.classifier ∧
    (s.serve l).table = s.table ∧ (s.serve l).conditions = s.conditions ∧ (s.serve l).levelUnit = s.levelUnit ∧
    (s.serve l).trunk = s.trunk ∧ (s.serve l).notices = s.notices ∧ (s.serve l).management = s.management ∧
    (s.serve l).pending = s.pending := by
  have same := serve_touches s l
  exact ⟨same.resetHeld (by decide), same.ports (by decide), same.classifier (by decide), same.table (by decide), same.conditions (by decide),
    same.levelUnit (by decide), same.trunk (by decide), same.notices (by decide), same.management (by decide), same.pending⟩

@[simp] theorem State.requestRelease_parts (o : Requester) (q : ReleaseRequest) :
    (s.requestRelease o q).resetHeld = s.resetHeld ∧ (s.requestRelease o q).classifier = s.classifier ∧
    (s.requestRelease o q).table = s.table ∧ (s.requestRelease o q).conditions = s.conditions ∧
    (s.requestRelease o q).levelUnit = s.levelUnit ∧ (s.requestRelease o q).service = s.service ∧
    (s.requestRelease o q).trunk = s.trunk ∧ (s.requestRelease o q).management = s.management ∧
    (s.requestRelease o q).pending = s.pending := by
  have same := requestRelease_touches s o q
  exact ⟨same.resetHeld (by decide), same.classifier (by decide), same.table (by decide), same.conditions (by decide),
    same.levelUnit (by decide), same.service (by decide), same.trunk (by decide), same.management (by decide), same.pending⟩

@[simp] theorem State.replySent_parts :
    s.replySent.resetHeld = s.resetHeld ∧ s.replySent.ports = s.ports ∧ s.replySent.classifier = s.classifier ∧
    s.replySent.table = s.table ∧ s.replySent.levelUnit = s.levelUnit ∧ s.replySent.service = s.service ∧
    s.replySent.notices = s.notices ∧ s.replySent.trunk.tx = s.trunk.tx ∧ s.replySent.trunk.rx = s.trunk.rx := by
  unfold State.replySent
  split <;> simp

@[simp] theorem State.postedSent_parts :
    s.postedSent.resetHeld = s.resetHeld ∧ s.postedSent.ports = s.ports ∧ s.postedSent.classifier = s.classifier ∧
    s.postedSent.table = s.table ∧ s.postedSent.trunk = s.trunk ∧ s.postedSent.notices = s.notices ∧
    s.postedSent.management = s.management := by
  unfold State.postedSent
  split <;> simp

@[simp] theorem State.awaitAfter_parts (l : LevelId) (ticket : Byte) (inPhase : SubState → Bool) :
    (s.awaitAfter l ticket inPhase).resetHeld = s.resetHeld ∧ (s.awaitAfter l ticket inPhase).ports = s.ports ∧
    (s.awaitAfter l ticket inPhase).classifier = s.classifier ∧ (s.awaitAfter l ticket inPhase).table = s.table ∧
    (s.awaitAfter l ticket inPhase).levelUnit = s.levelUnit ∧ (s.awaitAfter l ticket inPhase).trunk = s.trunk ∧
    (s.awaitAfter l ticket inPhase).notices = s.notices ∧ (s.awaitAfter l ticket inPhase).management = s.management := by
  unfold State.awaitAfter
  split <;> simp

@[simp] theorem State.grantPosted_parts (l : LevelId) (r : Record) :
    (s.grantPosted l r).resetHeld = s.resetHeld ∧ (s.grantPosted l r).ports = s.ports ∧
    (s.grantPosted l r).classifier = s.classifier ∧ (s.grantPosted l r).table = s.table ∧
    (s.grantPosted l r).service = s.service ∧ (s.grantPosted l r).notices = s.notices ∧
    (s.grantPosted l r).management = s.management := by
  simp [State.grantPosted]

@[simp] theorem State.grantHeld_parts (l : LevelId) (r : Record) (ticket : Byte) :
    (s.grantHeld l r ticket).resetHeld = s.resetHeld ∧ (s.grantHeld l r ticket).ports = s.ports ∧
    (s.grantHeld l r ticket).classifier = s.classifier ∧ (s.grantHeld l r ticket).table = s.table ∧
    (s.grantHeld l r ticket).notices = s.notices ∧ (s.grantHeld l r ticket).management = s.management := by
  simp [State.grantHeld, State.setTicketCounter]

@[simp] theorem State.enableNotices_parts (enables : BitVec 5) :
    (s.enableNotices enables).resetHeld = s.resetHeld ∧ (s.enableNotices enables).ports = s.ports ∧
    (s.enableNotices enables).classifier = s.classifier ∧ (s.enableNotices enables).table = s.table ∧
    (s.enableNotices enables).levelUnit = s.levelUnit ∧ (s.enableNotices enables).service = s.service ∧
    (s.enableNotices enables).management = s.management := by
  simp [State.enableNotices]

@[simp] theorem State.trafficReset_parts :
    s.trafficReset.resetHeld = s.resetHeld ∧ s.trafficReset.notices = s.notices ∧ s.trafficReset.pending = s.pending := by
  have same := trafficReset_touches s
  exact ⟨same.resetHeld (by decide), same.notices (by decide), same.pending⟩

@[simp] theorem State.takeResume_parts :
    s.takeResume.resetHeld = s.resetHeld ∧ s.takeResume.ports = s.ports ∧ s.takeResume.classifier = s.classifier ∧
    s.takeResume.table = s.table ∧ s.takeResume.conditions = s.conditions ∧ s.takeResume.levelUnit = s.levelUnit ∧
    s.takeResume.service = s.service ∧ s.takeResume.trunk.tx = s.trunk.tx ∧ s.takeResume.trunk.rx = s.trunk.rx ∧
    s.takeResume.trunk.replies = s.trunk.replies ∧ s.takeResume.notices = s.notices ∧
    s.takeResume.management = s.management :=
  ⟨rfl, rfl, rfl, rfl, rfl, rfl, rfl, rfl, rfl, rfl, rfl, rfl⟩

@[simp] theorem State.injectReply_parts (f : FlightEvent) (d : Decision) (o : ActionOutcome) :
    (s.injectReply f d o).resetHeld = s.resetHeld ∧ (s.injectReply f d o).ports = s.ports ∧
    (s.injectReply f d o).classifier = s.classifier ∧ (s.injectReply f d o).table = s.table ∧
    (s.injectReply f d o).conditions = s.conditions ∧ (s.injectReply f d o).levelUnit = s.levelUnit ∧
    (s.injectReply f d o).service = s.service ∧ (s.injectReply f d o).notices = s.notices ∧
    (s.injectReply f d o).pending = s.pending ∧ (s.injectReply f d o).trunk.tx = s.trunk.tx ∧
    (s.injectReply f d o).trunk.rx = s.trunk.rx := by
  unfold State.injectReply
  split
  · simp
  · simp [State.produceReply]

@[simp] theorem State.answerConflict_parts (r : Option PendingReply) :
    (s.answerConflict r).resetHeld = s.resetHeld ∧ (s.answerConflict r).ports = s.ports ∧
    (s.answerConflict r).classifier = s.classifier ∧ (s.answerConflict r).table = s.table ∧
    (s.answerConflict r).levelUnit = s.levelUnit ∧ (s.answerConflict r).service = s.service ∧
    (s.answerConflict r).notices = s.notices ∧ (s.answerConflict r).trunk.tx = s.trunk.tx ∧
    (s.answerConflict r).trunk.rx = s.trunk.rx := by
  cases r <;> simp [State.answerConflict, State.produceReply]

@[simp] theorem State.landSwap_trunk_tx : s.landSwap.trunk.tx = s.trunk.tx ∧ s.landSwap.trunk.rx = s.trunk.rx := by
  unfold State.landSwap
  split
  · split <;> simp [State.produceReply]
  · simp
  · simp

/-- The event in flight is counted and its action carried out: what its completion does but for the reply and the swap. -/
def State.carriedOut (s : State) (f : FlightEvent) : State := ((s.countHit f).carryOut f (s.decide f).action).1

@[simp] theorem State.carriedOut_parts (f : FlightEvent) :
    (s.carriedOut f).resetHeld = s.resetHeld ∧ (s.carriedOut f).classifier = s.classifier ∧
    (s.carriedOut f).table = s.table.setBank f.bank ((s.table.bank f.bank).countHit (s.decide f).decider) ∧
    (s.carriedOut f).service = s.service ∧ (s.carriedOut f).trunk = s.trunk ∧
    (s.carriedOut f).management = s.management := by
  have same := carryOut_touches (s.countHit f) f (s.decide f).action
  exact ⟨same.resetHeld (by decide), same.classifier (by decide), same.table (by decide), same.service (by decide),
    same.trunk (by decide), same.management (by decide)⟩

theorem State.completeFlight_eq (f : FlightEvent) :
    s.completeFlight f = (((s.carriedOut f).injectReply f (s.decide f)
      ((s.countHit f).carryOut f (s.decide f).action).2).setClassifier { s.classifier with inFlight := none }).landSwap := by
  simp only [State.completeFlight, State.injectReply_parts]
  rw [← (s.carriedOut_parts f).2.1]
  rfl

@[simp] theorem State.completeFlight_outside (f : FlightEvent) :
    (s.completeFlight f).ports = (s.carriedOut f).ports ∧ (s.completeFlight f).conditions = (s.carriedOut f).conditions ∧
    (s.completeFlight f).levelUnit = (s.carriedOut f).levelUnit ∧ (s.completeFlight f).notices = (s.carriedOut f).notices ∧
    (s.completeFlight f).classifier = { s.classifier with inFlight := none } ∧
    (s.completeFlight f).trunk.tx = s.trunk.tx ∧ (s.completeFlight f).trunk.rx = s.trunk.rx := by
  simp [State.completeFlight_eq]

@[simp] theorem State.trafficReset_outside :
    s.trafficReset.ports = (tabulate fun p => (look s.ports p).traffic) ∧
    s.trafficReset.classifier = Classifier.initial ∧
    s.trafficReset.levelUnit = s.levelUnit.traffic ∧ s.trafficReset.service = s.service.traffic ∧
    s.trafficReset.trunk.tx = s.trunk.tx ∧ s.trafficReset.trunk.rx = s.trunk.rx := by
  simp [State.trafficReset, State.trafficEffects]

end Sys2Proof.Machine
end

section
/-!
What the ports hold, step by step (R16, R19, R20, R25).
-/

namespace Sys2Proof.Machine

/-! ### The Level Unit, the Service Unit and the causes of notices -/

/-- What a release request may do: nothing, or join the queue of an enabled port with room, or set RELEASE-LOST (R19). -/
theorem State.requestRelease_keeps {P : State → Prop} {s : State} (o : Requester) (q : ReleaseRequest) (h : P s)
    (append : ∀ p, (look s.ports p).enabled = true → (look s.ports p).releases.length < 8 →
      P (s.setPort p { look s.ports p with releases := (look s.ports p).releases ++ [q] }))
    (lost : ∀ p, P (s.raisePort p .releaseLost)) : P (s.requestRelease o q) := by
  cases origin : portOf o with
  | none =>
    rw [portOf_eq_none origin, State.requestRelease_internal]
    exact h
  | some p =>
    rw [portOf_eq_some origin, State.requestRelease_port]
    split_ifs with disabled room
    · exact h
    · exact append p (by simpa using disabled) room
    · exact lost p

theorem State.releaseIfHeld_keeps {P : State → Prop} {s : State} (r : Record) (o : ReleaseOutcome) (h : P s)
    (request : P (s.requestRelease r.origin (releaseOf r o))) : P (s.releaseIfHeld r o) := by
  cases kind : r.kind with
  | posted =>
    rw [State.releaseIfHeld_posted kind]
    exact h
  | held =>
    rw [State.releaseIfHeld_held kind]
    exact request

/-- The Level Unit and the Service Unit play no part in the predicate, and it is kept by the causes of notices that these units
raise and by their release requests. -/
structure LevelsUnread (P : State → Prop) : Prop where
  setLevelUnit : ∀ s u, P s → P (s.setLevelUnit u)
  setService : ∀ s u, P s → P (s.setService u)
  levelCause : ∀ s l, P s → P (s.setNotices (s.notices.levelCause l))
  poolCause : ∀ s, P s → P (s.setNotices s.notices.poolCause)
  lapseCause : ∀ s ticket l, P s → P (s.setNotices (s.notices.lapseCause ticket l))
  requestRelease : ∀ s o q, P s → P (s.requestRelease o q)

section
variable {P : State → Prop} (unread : LevelsUnread P) {s : State}
include unread

theorem LevelsUnread.setLevel (h : P s) (l : LevelId) (x : Level) : P (s.setLevel l x) :=
  unread.setLevelUnit s _ h

theorem LevelsUnread.countDrop (h : P s) (l : LevelId) : P (s.countDrop l) :=
  unread.levelCause _ l (unread.setLevel h l _)

theorem LevelsUnread.releaseIfHeld (h : P s) (r : Record) (o : ReleaseOutcome) : P (s.releaseIfHeld r o) :=
  State.releaseIfHeld_keeps r o h (unread.requestRelease _ _ _ h)

theorem LevelsUnread.allocate (h : P s) (q : Record) : P (s.allocate q).1 := by
  unfold State.allocate
  split_ifs
  · exact unread.releaseIfHeld (unread.poolCause _ (unread.setLevelUnit s _ h)) q .refused
  · rw [State.lowerMark_eq]
    exact unread.setLevelUnit _ _ (unread.setLevel h _ _)

theorem LevelsUnread.displaceHead (h : P s) (l : LevelId) : P (s.displaceHead l) := by
  unfold State.displaceHead
  split
  · exact h
  · exact unread.releaseIfHeld (unread.countDrop (unread.setLevel h l _) l) _ .refused

theorem LevelsUnread.admitToRoom (h : P s) (q : Record) : P (s.admitToRoom q).1 := by
  unfold State.admitToRoom
  split_ifs
  · exact unread.allocate h q
  · split
    · exact unread.releaseIfHeld (unread.countDrop h _) q .refused
    · exact unread.allocate (unread.displaceHead h _) q

theorem LevelsUnread.admission (h : P s) (q : Record) : P (s.admission q).1 := by
  unfold State.admission
  split
  · next t merged =>
    rw [State.coalesce_frame merged]
    exact unread.setLevelUnit s _ h
  · split_ifs
    · exact h
    · exact unread.admitToRoom h q

theorem LevelsUnread.abortReturn (h : P s) (r : Record) : P (s.abortReturn r) := by
  unfold State.abortReturn
  split_ifs
  · exact unread.releaseIfHeld (unread.countDrop (unread.setLevel h _ _) _) _ .refused
  · exact unread.setLevel h _ _

theorem LevelsUnread.serve (h : P s) (l : LevelId) : P (s.serve l) := by
  rw [State.serve_frame]
  exact unread.setService s _ h

theorem LevelsUnread.retire (h : P s) (l : LevelId) (r : ServiceRecord) (o : RetireOutcome) : P (s.retire l r o) := by
  have requested : P (((s.setInService l none).countRetire l o).requestRelease r.record.origin
      (releaseOf r.record (releaseOutcomeOf o))) :=
    unread.requestRelease _ _ _ (unread.setLevel (unread.setService s _ h) l _)
  unfold State.retire
  refine unread.serve ?_ l
  cases o with
  | lapsed => exact unread.lapseCause _ _ _ requested
  | done => exact requested
  | reject => exact requested
  | flushed => exact requested

theorem LevelsUnread.flush (h : P s) (l : LevelId) : P (s.flush l) := by
  unfold State.flush State.releaseFlushed State.flushService
  refine foldl_keeps (unread.setLevel ?_ l _) fun u r _ hu => unread.releaseIfHeld hu r .flushed
  split
  · exact unread.retire h l _ .flushed
  · exact h

/-- An action keeps what its slot's update keeps as well. -/
theorem LevelsUnread.carryOut (setCondition : ∀ s i x, P s → P (s.setCondition i x)) (h : P s) (f : FlightEvent)
    (a : EntryAction) : P (s.carryOut f a).1 := by
  cases a with
  | forward l => exact unread.admission h _
  | hold l => exact unread.admission h _
  | track l i =>
    simp only [State.carryOut, State.track, State.trackChange]
    split_ifs
    · exact setCondition s i _ h
    · exact setCondition _ i _ (unread.admission h _)
    · exact unread.admission h _
  | count => exact h
  | discard => exact h

end

/-! ### A port, update by update -/

section
variable {s t : State} (h : s.PortsKept)
include h

/-- A state with the same ports, and RESET_N held low in both or in neither. -/
theorem State.PortsKept.of_same (ports : t.ports = s.ports) (held : t.resetHeld = s.resetHeld) : t.PortsKept := by
  rw [State.PortsKept, ports, held]
  exact h

theorem State.PortsKept.setPort {p : PortId} {x : FieldPort} (kept : x.Kept s.resetHeld) : (s.setPort p x).PortsKept := by
  intro q
  rw [State.setPort_ports, look_put]
  split
  · exact kept
  · exact h q

theorem State.PortsKept.raisePort (p : PortId) (c : PortCondition) : (s.raisePort p c).PortsKept := by
  intro q
  rw [State.raisePort_look, (raisePort_touches s p c).resetHeld (by decide)]
  exact h q

theorem State.PortsKept.raiseTrunk (c : TrunkCondition) : (s.raiseTrunk c).PortsKept := by
  rw [State.raiseTrunk_frame]
  exact h

theorem State.PortsKept.raiseStray : s.raiseStray.PortsKept := by
  rw [State.raiseStray_frame]
  exact h

theorem State.PortsKept.requestRelease (o : Requester) (q : ReleaseRequest) : (s.requestRelease o q).PortsKept := by
  refine State.requestRelease_keeps o q h (fun p enabled room => h.setPort ?_) fun p => h.raisePort p .releaseLost
  obtain ⟨received, _, _, live, marked⟩ := h p
  refine ⟨received, by simpa [Config.releaseCapacity] using room, by simp [enabled], live, fun isMarked => ?_⟩
  obtain ⟨nonempty, sent⟩ := marked isMarked
  exact ⟨by simp, fun running => (sent running).trans (by rw [List.head?_append_of_ne_nil _ nonempty])⟩

end

theorem portsKept_levelsUnread : LevelsUnread State.PortsKept :=
  ⟨fun _ _ h => h, fun _ _ h => h, fun _ _ h => h, fun _ h => h, fun _ _ _ h => h, fun _ o q h => h.requestRelease o q⟩

section
variable {s t : State} (h : s.PortsKept)
include h

/-! ### Frames that arrive -/

theorem State.PortsKept.portVerdict (p : PortId) (v : Verdict) : (s.portVerdict p v).PortsKept := by
  refine State.portVerdict_keeps h (fun c => h.raisePort p c) fun bytes e _ _ enabled room => h.setPort ?_
  obtain ⟨_, releases, _, live, marked⟩ := h p
  exact ⟨by simpa [Config.receiveCapacity] using room, releases, by simp [enabled], live, marked⟩

theorem State.PortsKept.fieldArrival (p : PortId) (symbols : List Symbol) : (s.fieldArrival p symbols).PortsKept := by
  refine State.fieldArrival_keeps symbols (fun r sameLive => h.setPort ?_) fun u v _ hu => hu.portVerdict p v
  obtain ⟨received, releases, disabled, live, marked⟩ := h p
  exact ⟨received, releases, disabled, fun sending => ⟨sameLive.trans (live sending).1, (live sending).2⟩, marked⟩

theorem State.PortsKept.takeRequest (tag op : Byte) (operands : List Byte) : (s.takeRequest tag op operands).PortsKept := by
  unfold State.takeRequest State.refuse
  split
  · exact h
  · split
    · exact h.raiseTrunk .mgmtDrop
    · exact h

theorem State.PortsKept.trunkArrival (symbols : List Symbol) : (s.trunkArrival symbols).PortsKept :=
  State.trunkArrival_keeps symbols (fun _ _ => h) fun _ v _ hu =>
    State.trunkVerdict_keeps v hu (fun c => hu.raiseTrunk c) (fun l r o _ => portsKept_levelsUnread.retire hu l r o)
      hu.raiseStray (fun _ => hu) hu.takeRequest

/-! ### Lines -/

theorem State.PortsKept.fieldLive (p : PortId) : (s.fieldLive p).PortsKept := by
  by_cases dead : (look s.ports p).rx = .dead
  · have live : (s.withPortRx p .hunt).PortsKept := by
      obtain ⟨received, releases, disabled, lineLive, marked⟩ := h p
      refine h.setPort ⟨received, releases, disabled, fun sending => ?_, marked⟩
      exact absurd (lineLive sending).1 (by simp [dead, Receiver.live])
    rw [State.fieldLive_of_dead dead]
    split_ifs
    · exact live.raisePort p .linkChange
    · exact live
  · rw [State.fieldLive_of_live dead]
    exact h

theorem State.PortsKept.trunkLive : s.trunkLive.PortsKept := by
  refine State.trunkLive_keeps h (fun _ _ => h) fun _ _ => State.PortsKept.raiseTrunk ?_ .linkChange
  rw [State.grantRestarted_frame]
  exact h

/-- A port that loses its line also loses its frame and its mark. -/
theorem State.PortsKept.portDown (p : PortId) : (s.portDown p).PortsKept := by
  obtain ⟨received, releases, disabled, -, -⟩ := h p
  have silent := (look s.ports p).tx.abort_sending
  refine h.setPort ⟨received, releases, fun off => ?_, fun sending => ?_, fun marked => ?_⟩
  · exact ⟨(disabled off).1, (disabled off).2.1, rfl, silent⟩
  · simp at sending
  · cases marked

theorem State.PortsKept.trunkDown : s.trunkDown.PortsKept := by
  have same := s.trunkDown_touches
  rw [State.PortsKept, same.ports (by decide), same.resetHeld (by decide)]
  exact h

theorem State.PortsKept.fieldDead (p : PortId) : (s.fieldDead p).PortsKept := by
  by_cases dead : (look s.ports p).rx = .dead
  · rw [State.fieldDead_of_dead dead]
    exact h
  · cases running : s.resetHeld with
    | true =>
      rw [State.fieldDead_of_held running]
      obtain ⟨received, releases, disabled, live, marked⟩ := h p
      refine h.setPort ⟨received, releases, disabled, fun sending => ?_, marked⟩
      exact absurd (live sending).2 (by simp [running])
    | false =>
      have cut : ((s.portDown p).portVerdict? p (look s.ports p).rx.goDead.2).PortsKept := by
        cases (look s.ports p).rx.goDead.2 with
        | none => exact h.portDown p
        | some v => exact (h.portDown p).portVerdict p v
      rw [State.fieldDead_of_live running dead]
      split_ifs
      · exact cut.raisePort p .linkChange
      · exact cut

theorem State.PortsKept.trunkDead : s.trunkDead.PortsKept := by
  refine State.trunkDead_keeps h (fun _ => h) (fun _ _ _ => h.trunkDown) fun _ _ g _ => ?_
  have down : s.trunkDown.wireAborted.PortsKept := h.trunkDown
  exact State.ownAbort_keeps down (fun _ _ => down) (fun _ _ _ _ _ => down)
    (fun _ r _ _ _ => portsKept_levelsUnread.abortReturn (portsKept_levelsUnread.setService _ _ down) r.record)
    (fun _ r _ _ => portsKept_levelsUnread.abortReturn (portsKept_levelsUnread.setLevelUnit _ _ down) r)

/-! ### The pins and the resets -/

theorem State.PortsKept.resetFalls : State.PortsKept { s with
    resetHeld := true
    ports := tabulate fun p => (look s.ports p).hold
    trunk := { s.trunk with rx := s.trunk.rx.ignoreFrames, tx := s.trunk.tx.cutOff } } := by
  intro p
  obtain ⟨received, releases, disabled, -, marked⟩ := h p
  have silent := (look s.ports p).tx.cutOff_sending
  simp only [look_tabulate, FieldPort.hold]
  refine ⟨received, releases, fun off => ?_, fun sending => ?_, fun isMarked => ⟨(marked isMarked).1, fun running => ?_⟩⟩
  · obtain ⟨noEvent, noRelease, unmarked, -⟩ := disabled off
    exact ⟨noEvent, noRelease, unmarked, silent⟩
  · simp at sending
  · cases running

omit h in
theorem State.released_portsKept (lines : LineJudgement) (waiting : List Instr) :
    (State.released lines waiting).PortsKept := by
  rw [State.released_frame]
  intro p
  simp only [State.initialised, look_tabulate]
  refine ⟨Nat.zero_le _, Nat.zero_le _, fun off => ?_, fun sending => ?_, fun marked => ?_⟩
  · cases off
  · cases sending
  · cases marked

theorem State.PortsKept.trafficReset : s.trafficReset.PortsKept := by
  intro p
  obtain ⟨-, -, disabled, live, -⟩ := h p
  simp only [State.trafficReset_outside, State.trafficReset_parts, look_tabulate]
  exact ⟨Nat.zero_le _, Nat.zero_le _, fun off => ⟨rfl, rfl, rfl, (disabled off).2.2.2⟩, live, fun marked => by cases marked⟩

omit h in
theorem State.fullReset_portsKept (s : State) (tag : Byte) : (s.fullReset tag).PortsKept := by
  intro p
  have silent := (look s.ports p).tx.abort_sending
  simp only [State.fullReset, look_tabulate]
  refine ⟨Nat.zero_le _, Nat.zero_le _, fun off => ?_, fun sending => ?_, fun marked => ?_⟩
  · cases off
  · simp [FieldPort.full] at sending
  · cases marked

/-! ### The other effects -/

omit h in
theorem FieldPort.Kept.configure {port : FieldPort} {held : Bool} (kept : port.Kept held) (enabled notices : Bool) :
    (port.configure enabled notices).Kept held := by
  obtain ⟨received, releases, disabled, live, marked⟩ := kept
  cases enabled with
  | true =>
    rw [FieldPort.configure_enabled]
    exact ⟨received, releases, fun off => absurd off Bool.false_ne_true.symm, live, marked⟩
  | false =>
    cases was : port.enabled with
    | true =>
      simp only [FieldPort.configure, was, FieldPort.disable, if_true, Bool.false_eq_true, if_false]
      refine ⟨Nat.zero_le _, Nat.zero_le _, fun _ => ⟨rfl, rfl, rfl, port.tx.abort_sending⟩, fun sending => ?_, fun marked => ?_⟩
      · simp at sending
      · cases marked
    | false =>
      rw [FieldPort.configure_disabled was]
      exact ⟨received, releases, fun _ => disabled was, live, marked⟩

theorem State.PortsKept.eventTaken {p : PortId} {e : Event} {rest : List Event}
    (waiting : (look s.ports p).received = e :: rest) : (s.setPort p { look s.ports p with received := rest }).PortsKept := by
  obtain ⟨received, releases, disabled, live, marked⟩ := h p
  rw [waiting, List.length_cons] at received
  refine h.setPort ⟨Nat.le_of_succ_le received, releases, fun off => ?_, live, marked⟩
  rw [(disabled off).1] at waiting
  cases waiting

theorem State.PortsKept.completeFlight (f : FlightEvent) : (s.completeFlight f).PortsKept := by
  have counted : (s.countHit f).PortsKept := h.of_same rfl rfl
  have carried : (s.carriedOut f).PortsKept :=
    portsKept_levelsUnread.carryOut (fun _ _ _ hu => hu.of_same (by simp) (by simp)) counted f _
  exact carried.of_same (by simp) (by simp)

theorem State.PortsKept.releaseStarts (running : s.Running) {p : PortId} {q : ReleaseRequest} {rest : List ReleaseRequest}
    (waiting : (look s.ports p).releases = q :: rest) (may : (look s.ports p).mayStart = true) :
    (s.setPort p { look s.ports p with
      headMarked := true, tx := { (look s.ports p).tx with sending := some (releaseFrame q) } }).PortsKept := by
  obtain ⟨received, releases, -, -, -⟩ := h p
  simp only [FieldPort.mayStart, FieldPort.state, Bool.and_eq_true, beq_iff_eq] at may
  obtain ⟨⟨up, -⟩, -⟩ := may
  split_ifs at up with enabled live
  refine h.setPort ⟨received, releases, fun off => ?_, fun _ => ⟨live, running⟩, fun _ => ?_⟩
  · simp [enabled] at off
  · simp [waiting]

theorem State.PortsKept.releaseEnds (p : PortId) : (s.setPort p (look s.ports p).released).PortsKept := by
  obtain ⟨received, releases, disabled, -, -⟩ := h p
  refine h.setPort ⟨received, ?_, fun off => ?_, fun sending => ?_, fun marked => ?_⟩
  · simp only [FieldPort.released]
    split_ifs
    · rw [List.length_tail]
      omega
    · exact releases
  · obtain ⟨noEvent, noRelease, -, -⟩ := disabled off
    exact ⟨noEvent, by simp [FieldPort.released, noRelease], rfl, rfl⟩
  · cases sending
  · cases marked

/-! ### Every transition -/

theorem State.PortsKept.effect (running : s.Running) (d : Effect s t) : t.PortsKept := by
  cases d
  case nothing => exact h
  case fieldSymbols p symbols => exact h.fieldArrival p symbols
  case trunkSymbols symbols => exact h.trunkArrival symbols
  case portEventStarts p e rest may waiting => exact (h.eventTaken waiting).of_same (by simp) (by simp)
  case classificationEnds f inFlight => exact h.completeFlight f
  case releaseStarts p q rest waiting may => exact h.releaseStarts running waiting may
  case releaseEnds p => exact h.releaseEnds p
  case timerLapses l r inService => exact portsKept_levelsUnread.retire h l r .lapsed
  case flushed q rest data l head => exact (portsKept_levelsUnread.flush h l).of_same (by simp) (by simp)
  case portRead q rest data p head =>
    have cleared : (s.setPort p { look s.ports p with conditions := 0 }).PortsKept := h.setPort (h p)
    exact cleared.of_same (by simp) (by simp)
  case portSet q rest data p enabled notices head =>
    exact (h.setPort (p := p) ((h p).configure enabled notices)).of_same (by simp) (by simp)
  case trafficReset q rest head =>
    have taken : (s.setManagement { s.management with queue := rest }).PortsKept := h.of_same (by simp) (by simp)
    exact taken.trafficReset.of_same (by simp [State.answer]) (by simp [State.answer])
  case fullReset q rest head => exact s.fullReset_portsKept q.tag
  all_goals exact h.of_same (by simp) (by simp)

theorem State.PortsKept.transition (d : Transition s t) : t.PortsKept := by
  cases d with
  | waits => exact h
  | resetFalls => exact h.resetFalls
  | resetReleased lines => exact State.released_portsKept lines _
  | fieldLive p => exact h.fieldLive p
  | fieldDead p => exact h.fieldDead p
  | trunkLive => exact h.trunkLive
  | trunkDead => exact h.trunkDead
  | runs running effect => exact h.effect running effect

end

/-- Settles O55: every transition keeps every port as its chapter says. -/
theorem everyStepKeepsThePorts : Obligations.EveryStepKeepsThePorts :=
  step_keeps (fun _ _ h => h) fun _ _ h d => h.transition d

end Sys2Proof.Machine
end

section
/-!
What the Table Store and the Classifier hold, step by step: legal definitions (R33, R41), the bank of the event in flight (R52), a
pending swap (R79, R80) and a copy under way (R78).
-/

namespace Sys2Proof.Machine

/-! ### Banks -/

section
variable (t : TableStore)

@[simp] theorem TableStore.bank_setBank_self (id : BankId) (b : Bank) : (t.setBank id b).bank id = b := by
  cases id <;> rfl

theorem TableStore.bank_setBank_ne {id other : BankId} (ne : other ≠ id) (b : Bank) : (t.setBank id b).bank other = t.bank other := by
  cases id <;> cases other <;> first | rfl | exact absurd rfl ne

@[simp] theorem TableStore.setBank_parts (id : BankId) (b : Bank) :
    (t.setBank id b).active = t.active ∧ (t.setBank id b).generation = t.generation ∧
    (t.setBank id b).operation = t.operation ∧ (t.setBank id b).standby = t.standby := by
  cases id <;> exact ⟨rfl, rfl, rfl, rfl⟩

theorem TableStore.standby_ne_active : t.standby ≠ t.active := by
  unfold TableStore.standby
  cases t.active <;> decide

@[simp] theorem TableStore.bank_setBank_active (b : Bank) : (t.setBank t.standby b).bank t.active = t.bank t.active :=
  t.bank_setBank_ne t.standby_ne_active.symm b

@[simp] theorem TableStore.bank_setBank_standby (b : Bank) : (t.setBank t.active b).bank t.standby = t.bank t.standby :=
  t.bank_setBank_ne t.standby_ne_active b

/-- Only the bank's letter, the generation and the operation change at a swap. -/
@[simp] theorem TableStore.swapped_bank (id : BankId) : t.swapped.bank id = t.bank id := by
  cases id <;> rfl

theorem TableStore.eq_active_or_standby (id : BankId) : id = t.active ∨ id = t.standby := by
  unfold TableStore.standby
  cases id <;> cases t.active <;> decide

end

/-! ### The lines -/

section
variable (s : State)

@[simp] theorem State.fieldLive_parts (p : PortId) :
    (s.fieldLive p).resetHeld = s.resetHeld ∧ (s.fieldLive p).classifier = s.classifier ∧ (s.fieldLive p).table = s.table ∧
    (s.fieldLive p).conditions = s.conditions ∧ (s.fieldLive p).levelUnit = s.levelUnit ∧
    (s.fieldLive p).service = s.service ∧ (s.fieldLive p).trunk = s.trunk ∧ (s.fieldLive p).management = s.management := by
  unfold State.fieldLive
  simp only []
  split_ifs
  · exact ⟨rfl, rfl, rfl, rfl, rfl, rfl, rfl, rfl⟩
  · rw [State.raisePort_frame]
    exact ⟨rfl, rfl, rfl, rfl, rfl, rfl, rfl, rfl⟩
  · exact ⟨rfl, rfl, rfl, rfl, rfl, rfl, rfl, rfl⟩

@[simp] theorem State.fieldDead_parts (p : PortId) :
    (s.fieldDead p).resetHeld = s.resetHeld ∧ (s.fieldDead p).classifier = s.classifier ∧ (s.fieldDead p).table = s.table ∧
    (s.fieldDead p).conditions = s.conditions ∧ (s.fieldDead p).levelUnit = s.levelUnit ∧
    (s.fieldDead p).service = s.service ∧ (s.fieldDead p).trunk = s.trunk ∧ (s.fieldDead p).management = s.management := by
  have same := fieldDead_touches s p
  exact ⟨same.resetHeld (by decide), same.classifier (by decide), same.table (by decide), same.conditions (by decide),
    same.levelUnit (by decide), same.service (by decide), same.trunk (by decide), same.management (by decide)⟩

@[simp] theorem State.trunkLive_parts :
    s.trunkLive.resetHeld = s.resetHeld ∧ s.trunkLive.ports = s.ports ∧ s.trunkLive.classifier = s.classifier ∧
    s.trunkLive.table = s.table ∧ s.trunkLive.conditions = s.conditions ∧ s.trunkLive.levelUnit = s.levelUnit ∧
    s.trunkLive.service = s.service ∧ s.trunkLive.management = s.management := by
  have same : SameOutside [.ports, .trunk, .notices] s s.trunkLive := execLineComesLive_touches .trunk rfl
  refine ⟨same.resetHeld (by decide), ?_, same.classifier (by decide), same.table (by decide), same.conditions (by decide),
    same.levelUnit (by decide), same.service (by decide), same.management (by decide)⟩
  refine State.trunkLive_keeps (P := fun u => u.ports = s.ports) rfl (fun _ _ => rfl) fun _ _ => ?_
  rw [State.raiseTrunk_frame, State.grantRestarted_frame]
  rfl

@[simp] theorem State.trunkDead_parts :
    s.trunkDead.resetHeld = s.resetHeld ∧ s.trunkDead.classifier = s.classifier ∧ s.trunkDead.table = s.table ∧
    s.trunkDead.conditions = s.conditions ∧ s.trunkDead.management = s.management := by
  have same := trunkDead_touches s
  exact ⟨same.resetHeld (by decide), same.classifier (by decide), same.table (by decide), same.conditions (by decide),
    same.management (by decide)⟩

end

/-! ### A swap -/

theorem State.landSwap_table (s : State) : s.landSwap.table =
    if s.table.operation.isSwapPending = true ∧ s.classifier.inFlight = none then s.table.swapped else s.table := by
  unfold State.landSwap
  cases operation : s.table.operation with
  | swapPending r => cases flight : s.classifier.inFlight <;> simp [BankOperation.isSwapPending]
  | idle => simp [BankOperation.isSwapPending]
  | copying progress r => simp [BankOperation.isSwapPending]

/-- The Classifier is IDLE after a TRAFFIC reset, so a pending swap takes effect (R71, R80). -/
theorem State.trafficReset_table (s : State) :
    s.trafficReset.table = if s.table.operation.isSwapPending = true then s.table.swapped else s.table := by
  simp [State.trafficReset, State.landSwap_table, State.trafficEffects, Classifier.initial]

/-! ### Legal definitions -/

/-- Both banks' entries hold legal definitions. -/
def TableStore.Legal (t : TableStore) : Prop := ∀ id, (t.bank id).Legal

theorem State.definitionsLegal_iff {s : State} : s.DefinitionsLegal ↔ s.table.Legal := by
  constructor
  · rintro ⟨a, b⟩ (_ | _)
    · exact a
    · exact b
  · intro h
    exact ⟨h .a, h .b⟩

theorem TableStore.Legal.setBank {t : TableStore} (h : t.Legal) (id : BankId) {b : Bank} (legal : b.Legal) :
    (t.setBank id b).Legal := by
  intro other
  by_cases same : other = id
  · subst same
    rw [TableStore.bank_setBank_self]
    exact legal
  · rw [TableStore.bank_setBank_ne t same]
    exact h other

/-- An entry put in a bank's table, its definition legal. -/
theorem Bank.Legal.putEntry {b : Bank} (h : b.Legal) (i : EntryId) {x : Option Entry}
    (legal : ∀ e ∈ x, e.definition.Legal) : ({ b with entries := put b.entries i x } : Bank).Legal := by
  intro j e at_j
  simp only [look_put] at at_j
  split at at_j
  · exact legal e at_j
  · exact h j e at_j

/-- An entry whose hits alone change has its definition still. -/
theorem Bank.Legal.mapHits {b : Bank} (h : b.Legal) (i : EntryId) (hits : Entry → Half) :
    ∀ e ∈ (look b.entries i).map (fun e => { e with hits := hits e }), e.definition.Legal := by
  intro e mapped
  obtain ⟨e₀, at_i, rfl⟩ := Option.mem_map.mp mapped
  exact h i e₀ at_i

theorem Bank.Legal.countHit {b : Bank} (h : b.Legal) (decider : Option EntryId) : (b.countHit decider).Legal := by
  cases decider with
  | none => exact h
  | some i => exact h.putEntry i (h.mapHits i fun e => satInc e.hits)

theorem Bank.Legal.clearHits {b : Bank} (h : b.Legal) (item : ItemName) : (b.clearHits item).Legal := by
  cases item with
  | defaultRecord => exact h
  | entry i => exact h.putEntry i (h.mapHits i fun _ => 0)

theorem TableStore.Legal.readClear {t : TableStore} (h : t.Legal) (id : BankId) (item : ItemName) (clear : Bool) :
    (t.readClear id item clear).Legal := by
  unfold TableStore.readClear
  split_ifs
  · exact h.setBank id ((h id).clearHits item)
  · exact h

theorem TableStore.Legal.copyItem {t : TableStore} (h : t.Legal) (progress : CopyProgress) : (t.copyItem progress).Legal := by
  cases progress with
  | entry i => exact h.setBank _ ((h t.standby).putEntry i ((h t.active).mapHits i fun _ => 0))
  | defaultRecord => exact h.setBank _ (h t.standby)
  | finished => exact h

theorem TableStore.Legal.of_banks {t u : TableStore} (h : t.Legal) (same : ∀ id, u.bank id = t.bank id) : u.Legal := by
  intro id
  rw [same id]
  exact h id

theorem TableStore.Legal.landSwap {s : State} (h : s.table.Legal) : s.landSwap.table.Legal := by
  rw [State.landSwap_table]
  split_ifs
  · exact h.of_banks s.table.swapped_bank
  · exact h

theorem TableStore.Legal.trafficReset {s : State} (h : s.table.Legal) : s.trafficReset.table.Legal := by
  rw [State.trafficReset_table]
  split_ifs
  · exact h.of_banks s.table.swapped_bank
  · exact h

/-- What passes the checks of WRITE-ENTRY carries a legal definition (R41). -/
theorem definitionOf_legal {ops : List Byte} (passed : writeEntryReason ops = none) : (definitionOf ops).Legal := by
  unfold writeEntryReason at passed
  split_ifs at passed with _ _ _ _ values _ _ pulse
  simp only [not_or, ne_eq, not_not] at values
  refine ⟨values.1, values.2, fun track => ?_⟩
  have isTrack : operand ops 9 = 3 := by
    by_contra not_track
    simp only [definitionOf, actionOf, not_track, if_false] at track
    split_ifs at track <;> cases track
  have noPulse : member (operand ops 8) 0 = false := by simpa [isTrack] using pulse
  simpa [definitionOf, member, condBit] using noPulse

theorem TableStore.initial_legal : TableStore.initial.Legal := by
  rintro (_ | _) i e at_i <;> simp [TableStore.bank, TableStore.initial, Bank.initial] at at_i

section
variable {s t : State} (h : s.table.Legal)
include h

theorem TableStore.Legal.effect (d : Effect s t) : t.table.Legal := by
  cases d
  case classificationEnds f inFlight =>
    rw [State.completeFlight_eq]
    refine TableStore.Legal.landSwap ?_
    simpa using h.setBank f.bank ((h f.bank).countHit (s.decide f).decider)
  case swapLands => exact h.landSwap
  case copySteps progress r copying => exact (h.copyItem progress).of_banks fun id => by cases id <;> rfl
  case copyEnds r copying =>
    refine h.of_banks fun id => ?_
    cases id <;> rfl
  case itemRead q rest data id item clear head => simpa using h.readClear id item clear
  case entrySet q rest data i d head idle legal =>
    have written : ((s.table.bank s.table.standby).setEntry i d).Legal := by
      refine (h s.table.standby).putEntry i fun e set => ?_
      obtain ⟨x, given, rfl⟩ := Option.mem_map.mp set
      obtain ⟨passed, rfl⟩ := legal x given
      exact definitionOf_legal passed
    simpa using h.setBank s.table.standby written
  case defaultSet q rest data d head idle =>
    have written : ({ s.table.bank s.table.standby with defaultRecord := d } : Bank).Legal := h s.table.standby
    simpa using h.setBank s.table.standby written
  case copyStarts q rest head idle =>
    refine h.of_banks fun id => ?_
    cases id <;> rfl
  case swapAsked q rest head idle =>
    refine TableStore.Legal.landSwap (s := State.deferred _ q rest) (h.of_banks fun id => ?_)
    cases id <;> rfl
  case trafficReset q rest head =>
    have kept : (s.setManagement { s.management with queue := rest }).table.Legal := h
    simpa only [State.answer, State.produceReply_parts] using kept.trafficReset
  case fullReset => exact TableStore.initial_legal
  all_goals simpa using h

theorem TableStore.Legal.transition (d : Transition s t) : t.table.Legal := by
  cases d with
  | waits => exact h
  | resetFalls => exact h
  | resetReleased lines =>
    rw [State.released_frame]
    exact TableStore.initial_legal
  | fieldLive p => simpa using h
  | fieldDead p => simpa using h
  | trunkLive => simpa using h
  | trunkDead => simpa using h
  | runs running effect => exact h.effect effect

end

/-! ### The event in flight, the pending swap and the copy -/

section
variable {t u : TableStore} {progress : CopyProgress} (h : t.CopyIsImage progress)
include h

/-- A copy is an image of what it was, if the ACTIVE bank's definitions are what they were and so is what it has made. -/
theorem TableStore.CopyIsImage.of_banks
    (active : ∀ j, (look (u.bank u.active).entries j).map uncounted = (look (t.bank t.active).entries j).map uncounted)
    (default : { (u.bank u.active).defaultRecord with hits := 0 } = { (t.bank t.active).defaultRecord with hits := 0 })
    (standby : u.bank u.standby = t.bank t.standby) : u.CopyIsImage progress := by
  obtain ⟨entries, record⟩ := h
  constructor
  · intro j passed
    rw [standby, entries j passed, active j]
  · intro finished
    rw [standby, record finished, default]

theorem TableStore.CopyIsImage.of_same (banks : ∀ id, u.bank id = t.bank id) (active : u.active = t.active) :
    u.CopyIsImage progress := by
  have standby : u.standby = t.standby := by rw [TableStore.standby, active, TableStore.standby]
  exact h.of_banks (fun j => by rw [active, banks]) (by rw [active, banks]) (by rw [standby, banks])

end

/-- Entries that differ in their hits alone. -/
theorem map_uncounted_mapHits (x : Option Entry) (hits : Entry → Half) :
    (x.map fun e => { e with hits := hits e }).map uncounted = x.map uncounted := by
  cases x <;> rfl

theorem Bank.countHit_uncounted (b : Bank) (decider : Option EntryId) (j : EntryId) :
    (look (b.countHit decider).entries j).map uncounted = (look b.entries j).map uncounted := by
  cases decider with
  | none => rfl
  | some i =>
    simp only [Bank.countHit, look_put]
    split_ifs with same
    · rw [same, map_uncounted_mapHits]
    · rfl

theorem Bank.countHit_defaultCleared (b : Bank) (decider : Option EntryId) :
    { (b.countHit decider).defaultRecord with hits := 0 } = { b.defaultRecord with hits := 0 } := by
  cases decider <;> rfl

theorem Bank.clearHits_uncounted (b : Bank) (item : ItemName) (j : EntryId) :
    (look (b.clearHits item).entries j).map uncounted = (look b.entries j).map uncounted := by
  cases item with
  | defaultRecord => rfl
  | entry i =>
    simp only [Bank.clearHits, look_put]
    split_ifs with same
    · rw [same, map_uncounted_mapHits]
    · rfl

theorem Bank.clearHits_default (b : Bank) (item : ItemName) :
    { (b.clearHits item).defaultRecord with hits := 0 } = { b.defaultRecord with hits := 0 } := by
  cases item <;> rfl

/-- What has no hit counted is not changed by clearing the hits of an item. -/
theorem Bank.clearHits_of_uncounted {b : Bank} {j : EntryId} {x : Option Entry} (image : look b.entries j = x.map uncounted)
    (item : ItemName) : look (b.clearHits item).entries j = x.map uncounted := by
  cases item with
  | defaultRecord => exact image
  | entry i =>
    simp only [Bank.clearHits, look_put]
    split_ifs with same
    · rw [same, image]
      cases x <;> rfl
    · exact image

theorem Bank.clearHits_default_of_uncounted {b : Bank} {x : DefaultRecord} (image : b.defaultRecord = { x with hits := 0 })
    (item : ItemName) : (b.clearHits item).defaultRecord = { x with hits := 0 } := by
  cases item with
  | defaultRecord => simp [Bank.clearHits, image]
  | entry i => exact image

section
variable {t : TableStore} {progress : CopyProgress} (h : t.CopyIsImage progress)
include h

theorem TableStore.CopyIsImage.countHit (decider : Option EntryId) :
    (t.setBank t.active ((t.bank t.active).countHit decider)).CopyIsImage progress := by
  refine h.of_banks (fun j => ?_) ?_ ?_
  · simpa using Bank.countHit_uncounted _ decider j
  · simpa using Bank.countHit_defaultCleared _ decider
  · simp

theorem TableStore.CopyIsImage.readClear (id : BankId) (item : ItemName) (clear : Bool) :
    (t.readClear id item clear).CopyIsImage progress := by
  unfold TableStore.readClear
  split_ifs
  · rcases t.eq_active_or_standby id with rfl | rfl
    · refine h.of_banks (fun j => ?_) ?_ ?_
      · simpa using Bank.clearHits_uncounted _ item j
      · simpa using Bank.clearHits_default _ item
      · simp
    · obtain ⟨entries, record⟩ := h
      constructor
      · intro j passed
        simpa using Bank.clearHits_of_uncounted (entries j passed) item
      · intro finished
        simpa using Bank.clearHits_default_of_uncounted (record finished) item
  · exact h

omit h in
/-- The entries passed after an item: those before it, and the item itself. -/
theorem CopyProgress.passed_next (i j : EntryId) (passed : (CopyProgress.entry i).next.passed j = true) :
    i = j ∨ (CopyProgress.entry i).passed j = true := by
  simp only [CopyProgress.passed, decide_eq_true_eq, Fin.lt_def, Fin.ext_iff]
  by_cases last : i = 63
  · have := j.isLt
    have : i.val = 63 := congrArg Fin.val last
    omega
  · simp only [CopyProgress.next, last, if_false, CopyProgress.passed, decide_eq_true_eq, Fin.lt_def] at passed
    have bound : i.val + 1 < 64 := by
      have := i.isLt
      have : i.val ≠ 63 := fun same => last (Fin.ext same)
      omega
    rw [Fin.val_add_one_of_lt' bound] at passed
    omega

theorem TableStore.CopyIsImage.copyItem : (t.copyItem progress).CopyIsImage progress.next := by
  obtain ⟨entries, record⟩ := h
  cases progress with
  | entry i =>
    constructor
    · intro j passed
      simp only [TableStore.copyItem, TableStore.setBank_parts, TableStore.bank_setBank_self, TableStore.bank_setBank_active,
        look_put]
      rcases CopyProgress.passed_next i j passed with rfl | before
      · rw [if_pos rfl]
        rfl
      · split_ifs with same
        · rw [same]
          rfl
        · exact entries j before
    · intro finished
      simp only [CopyProgress.next] at finished
      split_ifs at finished
  | defaultRecord => exact ⟨fun j _ => by simpa [TableStore.copyItem] using entries j rfl, fun _ => by simp [TableStore.copyItem]⟩
  | finished => exact ⟨entries, record⟩

end

theorem TableStore.copyIsImage_start (t : TableStore) : t.CopyIsImage (.entry 0) :=
  ⟨fun j passed => by simp [CopyProgress.passed] at passed, fun finished => by cases finished⟩

/-- The event in flight and the copy are as they should be; the pending swap is left out. -/
structure State.FlightKept (s : State) : Prop where
  noted : ∀ f ∈ s.classifier.inFlight, f.bank = s.table.active ∧ f.generation = s.table.generation
  image : ∀ progress ∈ s.table.operation.progress, s.table.CopyIsImage progress

section
variable {s t : State}

theorem State.TableKept.flightKept (h : s.TableKept) : s.FlightKept := ⟨h.1, h.2.2⟩

theorem State.TableKept.of_same (h : s.TableKept) (table : t.table = s.table)
    (inFlight : t.classifier.inFlight = s.classifier.inFlight) : t.TableKept := by
  rw [State.TableKept, table, inFlight]
  exact h

/-- After `landSwap` no swap is pending without an event in flight. -/
theorem State.FlightKept.landSwap (h : s.FlightKept) : s.landSwap.TableKept := by
  obtain ⟨noted, image⟩ := h
  rw [State.TableKept, State.landSwap_table, s.landSwap_parts.2.2.1]
  split_ifs with lands
  · rw [lands.2]
    simp [TableStore.swapped, BankOperation.progress, BankOperation.isSwapPending]
  · refine ⟨noted, fun pending => ?_, image⟩
    rw [Option.isSome_iff_ne_none]
    exact fun idle => lands ⟨pending, idle⟩

theorem State.flight_noted (r : Requester) (e : Event) (reply : Option PendingReply) :
    (s.flight r e reply).bank = s.table.active ∧ (s.flight r e reply).generation = s.table.generation := ⟨rfl, rfl⟩

/-- An event that enters the pipeline notes the ACTIVE bank and the generation. -/
theorem State.TableKept.starts (h : s.TableKept) (table : t.table = s.table) {r : Requester} {e : Event}
    {reply : Option PendingReply} (inFlight : t.classifier.inFlight = some (s.flight r e reply)) : t.TableKept := by
  rw [State.TableKept, table, inFlight]
  refine ⟨fun f noted => ?_, fun _ => rfl, h.2.2⟩
  cases noted
  exact s.flight_noted r e reply

variable (h : s.TableKept)
include h

theorem State.TableKept.completeFlight {f : FlightEvent} (inFlight : s.classifier.inFlight = some f) :
    (s.completeFlight f).TableKept := by
  rw [State.completeFlight_eq]
  refine State.FlightKept.landSwap ⟨by simp, ?_⟩
  obtain ⟨noted, -, image⟩ := h
  have active : f.bank = s.table.active := (noted f inFlight).1
  simpa [active] using fun progress copying => (image progress copying).countHit (s.decide f).decider

/-- A table whose hits alone change: letter, generation and operation stay, and so does the image of a copy. -/
theorem State.TableKept.of_image (inFlight : t.classifier.inFlight = s.classifier.inFlight)
    (active : t.table.active = s.table.active) (generation : t.table.generation = s.table.generation)
    (operation : t.table.operation = s.table.operation)
    (image : ∀ progress ∈ s.table.operation.progress, t.table.CopyIsImage progress) : t.TableKept := by
  obtain ⟨noted, pending, -⟩ := h
  rw [State.TableKept, inFlight, active, generation, operation]
  exact ⟨noted, pending, image⟩

omit h in
theorem TableStore.readClear_parts (t : TableStore) (id : BankId) (item : ItemName) (clear : Bool) :
    (t.readClear id item clear).active = t.active ∧ (t.readClear id item clear).generation = t.generation ∧
    (t.readClear id item clear).operation = t.operation := by
  unfold TableStore.readClear
  split_ifs <;> simp

omit h in
@[simp] theorem TableStore.copyItem_parts (t : TableStore) (progress : CopyProgress) :
    (t.copyItem progress).active = t.active ∧ (t.copyItem progress).generation = t.generation := by
  cases progress <;> simp [TableStore.copyItem]

theorem State.TableKept.copySteps {progress : CopyProgress} {r : PendingReply} (copying : s.table.operation = .copying progress r) :
    (s.setTable { s.table.copyItem progress with operation := .copying progress.next r }).TableKept := by
  obtain ⟨noted, pending, image⟩ := h
  have image := (image progress (by simp [copying, BankOperation.progress])).copyItem
  refine ⟨by simpa using noted, ?_, fun next is => ?_⟩
  · simp [BankOperation.isSwapPending]
  cases is
  exact image.of_same (fun id => by cases id <;> rfl) rfl

omit h in
/-- A table whose operation is not a swap or a copy holds nothing but the event in flight to its notes. -/
theorem State.FlightKept.of_idle (h : s.FlightKept) (inFlight : t.classifier.inFlight = s.classifier.inFlight)
    (active : t.table.active = s.table.active) (generation : t.table.generation = s.table.generation)
    (idle : t.table.operation = .idle) : t.TableKept := by
  rw [State.TableKept, inFlight, active, generation, idle]
  refine ⟨h.noted, ?_, ?_⟩ <;> simp [BankOperation.isSwapPending, BankOperation.progress]

omit h in
theorem State.trafficReset_tableKept (h : s.TableKept) : s.trafficReset.TableKept := by
  obtain ⟨-, -, image⟩ := h
  have effects : s.trafficReset.classifier.inFlight = none := by simp [Classifier.initial]
  rw [State.TableKept, effects, State.trafficReset_table]
  split_ifs with pending
  · simp [TableStore.swapped, BankOperation.progress, BankOperation.isSwapPending]
  · exact ⟨by simp, fun swap => absurd swap pending, image⟩

omit h in
theorem State.initial_tableKept (inFlight : s.classifier.inFlight = none) (table : s.table = TableStore.initial) : s.TableKept := by
  rw [State.TableKept, inFlight, table]
  simp [TableStore.initial, BankOperation.progress, BankOperation.isSwapPending]

theorem State.TableKept.effect (d : Effect s t) : t.TableKept := by
  cases d
  case portEventStarts p e rest may waiting =>
    exact h.starts (r := requesterOf p) (e := e) (reply := none) (by simp) (by simp)
  case injectionStarts i r may waiting =>
    exact h.starts (r := r) (e := i.event) (reply := some i.reply) (by simp) (by simp)
  case classificationEnds f inFlight => exact h.completeFlight inFlight
  case swapLands => exact h.flightKept.landSwap
  case copySteps progress r copying => exact h.copySteps copying
  case copyEnds r copying => exact h.flightKept.of_idle (by simp) (by simp) (by simp) (by simp)
  case itemRead q rest data id item clear head =>
    obtain ⟨active, generation, operation⟩ := s.table.readClear_parts id item clear
    exact h.of_image (by simp) (by simp [active]) (by simp [generation]) (by simp [operation])
      (by simpa using fun progress copying => (h.2.2 progress copying).readClear id item clear)
  case entrySet q rest data i d head idle legal => exact h.flightKept.of_idle (by simp) (by simp) (by simp) (by simp [idle])
  case defaultSet q rest data d head idle => exact h.flightKept.of_idle (by simp) (by simp) (by simp) (by simp [idle])
  case copyStarts q rest head idle =>
    refine ⟨by simpa using h.1, fun swap => by simp [BankOperation.isSwapPending] at swap, fun progress is => ?_⟩
    simp only [State.deferred_parts, State.setTable_table] at is ⊢
    cases is
    exact TableStore.copyIsImage_start _
  case swapAsked q rest head idle =>
    exact State.FlightKept.landSwap ⟨by simpa using h.1, by simp [BankOperation.progress]⟩
  case trafficReset q rest head =>
    have taken : (s.setManagement { s.management with queue := rest }).TableKept := h
    refine (State.trafficReset_tableKept taken).of_same ?_ ?_ <;> simp only [State.answer, State.produceReply_parts]
  case fullReset q rest head => exact State.initial_tableKept rfl rfl
  all_goals exact h.of_same (by simp) (by simp)

theorem State.TableKept.transition (d : Transition s t) : t.TableKept := by
  cases d with
  | waits => exact h
  | resetFalls => exact h
  | resetReleased lines =>
    rw [State.released_frame]
    exact State.initial_tableKept rfl rfl
  | fieldLive p => exact h.of_same (by simp) (by simp)
  | fieldDead p => exact h.of_same (by simp) (by simp)
  | trunkLive => exact h.of_same (by simp) (by simp)
  | trunkDead => exact h.of_same (by simp) (by simp)
  | runs running effect => exact h.effect effect

end

/-- Settles O56: legal definitions come from the checks of WRITE-ENTRY alone, and each change of the table keeps the notes of the
event in flight and the image of a copy. -/
theorem everyStepKeepsTheTable : Obligations.EveryStepKeepsTheTable := by
  constructor
  · refine step_keeps (fun _ _ h => h) fun s t h d => ?_
    rw [State.definitionsLegal_iff] at h ⊢
    exact h.transition d
  · exact step_keeps (fun _ _ h => h) fun _ _ h d => h.transition d

end Sys2Proof.Machine
end

section
/-!
The records that wait, level by level, and how a predicate on states is carried through the operations of the Level Unit and the
Service Unit: an admission, an abort return, a retire, a flush.
-/

namespace Sys2Proof.Machine

/-! ### What the Trunk Port takes -/

section
variable (s : State)

@[simp] theorem State.raiseTrunk_parts (c : TrunkCondition) :
    (s.raiseTrunk c).resetHeld = s.resetHeld ∧ (s.raiseTrunk c).ports = s.ports ∧
    (s.raiseTrunk c).classifier = s.classifier ∧ (s.raiseTrunk c).table = s.table ∧
    (s.raiseTrunk c).levelUnit = s.levelUnit ∧ (s.raiseTrunk c).service = s.service ∧
    (s.raiseTrunk c).trunk.tx = s.trunk.tx ∧ (s.raiseTrunk c).trunk.rx = s.trunk.rx ∧
    (s.raiseTrunk c).trunk.replies = s.trunk.replies ∧ (s.raiseTrunk c).management = s.management := by
  rw [State.raiseTrunk_eq]
  exact ⟨rfl, rfl, rfl, rfl, rfl, rfl, rfl, rfl, rfl, rfl⟩

@[simp] theorem State.raiseStray_parts :
    s.raiseStray.resetHeld = s.resetHeld ∧ s.raiseStray.ports = s.ports ∧ s.raiseStray.classifier = s.classifier ∧
    s.raiseStray.table = s.table ∧ s.raiseStray.levelUnit = s.levelUnit ∧ s.raiseStray.service = s.service ∧
    s.raiseStray.trunk.tx = s.trunk.tx ∧ s.raiseStray.trunk.rx = s.trunk.rx ∧
    s.raiseStray.trunk.replies = s.trunk.replies ∧ s.raiseStray.management = s.management := by
  simp [State.raiseStray]

@[simp] theorem State.takeRequest_parts (tag op : Byte) (operands : List Byte) :
    (s.takeRequest tag op operands).resetHeld = s.resetHeld ∧ (s.takeRequest tag op operands).ports = s.ports ∧
    (s.takeRequest tag op operands).classifier = s.classifier ∧ (s.takeRequest tag op operands).table = s.table ∧
    (s.takeRequest tag op operands).levelUnit = s.levelUnit ∧ (s.takeRequest tag op operands).service = s.service ∧
    (s.takeRequest tag op operands).trunk.tx = s.trunk.tx ∧ (s.takeRequest tag op operands).trunk.rx = s.trunk.rx := by
  unfold State.takeRequest
  split
  · simp [State.accept]
  · unfold State.refuse
    split <;> simp

end

/-! ### Lists made level by level -/

section
variable {α β : Type} {f g : α → List β}

theorem flatMap_sublist (shorter : ∀ a, (g a).Sublist (f a)) : ∀ l : List α, (l.flatMap g).Sublist (l.flatMap f)
  | [] => List.Sublist.refl _
  | a :: l => by
    simp only [List.flatMap_cons]
    exact (shorter a).append (flatMap_sublist shorter l)

open List in
/-- Where one member's list gains an element and the others' are the same, so does the whole. -/
theorem flatMap_perm_cons [DecidableEq α] {a : α} {b : β} (other : ∀ x, x ≠ a → g x = f x) (gains : g a ~ b :: f a)
    {l : List α} (distinct : l.Nodup) (mem : a ∈ l) : l.flatMap g ~ b :: l.flatMap f := by
  have rest : (l.erase a).flatMap g = (l.erase a).flatMap f :=
    List.flatMap_congr fun x hx => other x (distinct.mem_erase_iff.mp hx).1
  calc l.flatMap g
    _ ~ (a :: l.erase a).flatMap g := (List.perm_cons_erase mem).flatMap_right g
    _ = g a ++ (l.erase a).flatMap f := by rw [List.flatMap_cons, rest]
    _ ~ b :: f a ++ (l.erase a).flatMap f := gains.append_right _
    _ = b :: (a :: l.erase a).flatMap f := by simp
    _ ~ b :: l.flatMap f := ((List.perm_cons_erase mem).symm.flatMap_right f).cons b

end

/-! ### The records that wait -/

/-- The records that wait at a level: its pending ones, and the one in service. -/
def State.waitingAt (s : State) (l : LevelId) : List Record :=
  (s.levelAt l).queue ++ ((s.inServiceAt l).map ServiceRecord.record).toList

theorem State.waitingRecords_eq (s : State) : s.waitingRecords = (List.finRange 16).flatMap s.waitingAt := rfl

section
variable {s t : State}

theorem State.waitingAt_setLevel (l : LevelId) (x : Level) (m : LevelId) :
    (s.setLevel l x).waitingAt m =
      if l = m then x.queue ++ ((s.inServiceAt l).map ServiceRecord.record).toList else s.waitingAt m := by
  unfold State.waitingAt
  rw [State.setLevel_levelAt, State.setLevel_inServiceAt]
  split_ifs with same
  · rw [same]
  · rfl

theorem State.waitingAt_setInService (l : LevelId) (x : Option ServiceRecord) (m : LevelId) :
    (s.setInService l x).waitingAt m =
      if l = m then (s.levelAt l).queue ++ (x.map ServiceRecord.record).toList else s.waitingAt m := by
  unfold State.waitingAt
  rw [State.setInService_inServiceAt, State.setInService_levelAt]
  split_ifs with same
  · rw [same]
  · rfl

theorem State.isDuplicate_eq (q : Record) :
    s.isDuplicate q = (q.kind == .held && s.waitingRecords.any (duplicates · q)) := by
  unfold State.isDuplicate State.waitingRecords
  rw [List.any_flatMap]
  congr 2
  funext l
  cases s.inServiceAt l <;> simp

/-- What waits is no more than before. -/
def State.WaitsLess (t s : State) : Prop := ∀ l, (t.waitingAt l).Sublist (s.waitingAt l)

theorem State.WaitsLess.waitingRecords (h : t.WaitsLess s) : t.waitingRecords.Sublist s.waitingRecords :=
  flatMap_sublist h _

theorem State.WaitsLess.isDuplicate (h : t.WaitsLess s) {q : Record} (new : s.isDuplicate q = false) :
    t.isDuplicate q = false := by
  rw [State.isDuplicate_eq] at new ⊢
  simp only [Bool.and_eq_false_iff, List.any_eq_false] at new ⊢
  exact new.imp_right fun none r mem => none r (h.waitingRecords.subset mem)

theorem State.waitsLess_shorter {l : LevelId} {x : Level} (shorter : x.queue.Sublist (s.levelAt l).queue) :
    (s.setLevel l x).WaitsLess s := by
  intro m
  rw [State.waitingAt_setLevel]
  split_ifs with same
  · subst same
    exact shorter.append_right _
  · exact List.Sublist.refl _

theorem State.waitsLess_retired (l : LevelId) : (s.setInService l none).WaitsLess s := by
  intro m
  rw [State.waitingAt_setInService]
  split_ifs with same
  · subst same
    simp [State.waitingAt]
  · exact List.Sublist.refl _

theorem State.waitsLess_of_same (levels : ∀ l, (t.levelAt l).queue = (s.levelAt l).queue)
    (inService : ∀ l, t.inServiceAt l = s.inServiceAt l) : t.WaitsLess s := by
  intro l
  rw [State.waitingAt, levels, inService]
  exact List.Sublist.refl _

/-- One record more waits. -/
theorem State.waitingRecords_gains {l : LevelId} {r : Record} (other : ∀ m, m ≠ l → t.waitingAt m = s.waitingAt m)
    (gains : (t.waitingAt l).Perm (r :: s.waitingAt l)) : t.waitingRecords.Perm (r :: s.waitingRecords) :=
  flatMap_perm_cons other gains (List.nodup_finRange 16) (List.mem_finRange l)

theorem State.enqueue_waitingRecords (q : Record) : (s.enqueue q).waitingRecords.Perm (q :: s.waitingRecords) := by
  refine State.waitingRecords_gains (l := q.level) (fun m other => ?_) ?_
  · rw [State.enqueue, State.waitingAt_setLevel, if_neg other.symm]
  · rw [State.enqueue, State.waitingAt_setLevel, if_pos rfl, Level.raiseHighWater_queue, State.waitingAt]
    rw [List.append_assoc]
    exact List.perm_middle

end

/-! ### A displacement -/

section
variable (s : State) (l : LevelId)

theorem State.displaceHead_levelAt (m : LevelId) :
    ((s.displaceHead l).levelAt m).queue = (if l = m then (s.levelAt l).queue.tail else (s.levelAt m).queue) ∧
    ((s.displaceHead l).levelAt m).settings = (s.levelAt m).settings := by
  unfold State.displaceHead
  split
  · next empty =>
    refine ⟨?_, rfl⟩
    split_ifs with same
    · rw [← same, empty]
      rfl
    · rfl
  · next r rs queue =>
    rw [State.releaseIfHeld_levelAt]
    simp only [State.countDrop, State.setNotices_levelAt, State.setLevel_levelAt, if_pos]
    split_ifs with same
    · subst same
      exact ⟨by simp [queue], rfl⟩
    · exact ⟨rfl, rfl⟩

theorem State.displaceHead_queue : ((s.displaceHead l).levelAt l).queue = (s.levelAt l).queue.tail := by
  rw [(s.displaceHead_levelAt l l).1, if_pos rfl]

theorem State.displaceHead_settings : ((s.displaceHead l).levelAt l).settings = (s.levelAt l).settings :=
  (s.displaceHead_levelAt l l).2

theorem State.displaceHead_waitsLess : (s.displaceHead l).WaitsLess s := by
  intro m
  have service : (s.displaceHead l).inServiceAt m = s.inServiceAt m := by
    rw [State.displaceHead_frame]
    rfl
  unfold State.waitingAt
  rw [service, (s.displaceHead_levelAt l m).1]
  refine List.Sublist.append_right ?_ _
  split_ifs with same
  · subst same
    exact List.tail_sublist _
  · exact List.Sublist.refl _

end

/-! ### A merge -/

/-- A merge replaces one pending record, which qualifies, by what it becomes (R90). -/
theorem mergeFirst_eq_some {q : Record} : ∀ {rs queue : List Record}, mergeFirst q rs = some queue →
    ∃ before r after, rs = before ++ r :: after ∧ coalescesWith r q = true ∧ queue = before ++ mergedInto r q :: after
  | [], _, h => by cases h
  | r :: rs, queue, h => by
    rw [mergeFirst] at h
    split_ifs at h with qualifies
    · cases h
      exact ⟨[], r, rs, rfl, qualifies, rfl⟩
    · obtain ⟨merged, later, rfl⟩ := Option.map_eq_some_iff.mp h
      obtain ⟨before, x, after, rfl, qualifies, rfl⟩ := mergeFirst_eq_some later
      exact ⟨r :: before, x, after, rfl, qualifies, rfl⟩

theorem mergeFirst_length {q : Record} {rs queue : List Record} (merge : mergeFirst q rs = some queue) :
    queue.length = rs.length := by
  obtain ⟨before, r, after, rfl, -, rfl⟩ := mergeFirst_eq_some merge
  simp

theorem posted_of_coalescesWith {r q : Record} (h : coalescesWith r q = true) : r.kind = .posted := by
  simp only [coalescesWith, Bool.and_eq_true, beq_iff_eq] at h
  exact h.1.1.1.1.1

/-! ### What reads the queues -/

/-- The predicate reads of the Level Unit and the Service Unit no more than the queues, their high-water counts and the records in
service; it is kept where fewer records wait, and the causes of notices and the release requests do not matter to it. -/
structure QueuesRead (P : State → Prop) : Prop where
  requestRelease : ∀ s o q, P s → P (s.requestRelease o q)
  setNotices : ∀ s n, P s → P (s.setNotices n)
  level : ∀ s l x, x.queue.Sublist (s.levelAt l).queue → x.settings = (s.levelAt l).settings →
    x.counts.highWater = (s.levelAt l).counts.highWater → P s → P (s.setLevel l x)
  refusals : ∀ s n, P s → P (s.setLevelUnit { s.levelUnit with refusals := n })
  retired : ∀ s l, P s → P (s.setInService l none)
  served : ∀ s l, P s → P (s.setService { s.service with lowest := l })

section
variable {P : State → Prop} (reads : QueuesRead P) {s : State}
include reads

theorem QueuesRead.countDrop (h : P s) (l : LevelId) : P (s.countDrop l) :=
  reads.setNotices _ _ (reads.level s l _ (List.Sublist.refl _) rfl rfl h)

theorem QueuesRead.releaseIfHeld (h : P s) (r : Record) (o : ReleaseOutcome) : P (s.releaseIfHeld r o) :=
  State.releaseIfHeld_keeps r o h (reads.requestRelease _ _ _ h)

theorem QueuesRead.refusePool (h : P s) (q : Record) : P (s.refusePool q) :=
  reads.releaseIfHeld (reads.setNotices _ _ (reads.refusals s _ h)) q .refused

theorem QueuesRead.displaceHead (h : P s) (l : LevelId) : P (s.displaceHead l) := by
  unfold State.displaceHead
  split
  · exact h
  · next r rs queue =>
    have displaced : P (s.setLevel l { s.levelAt l with queue := rs }) :=
      reads.level s l _ (queue ▸ List.sublist_cons_self r rs) rfl rfl h
    exact reads.releaseIfHeld (reads.countDrop displaced l) r .refused

theorem QueuesRead.serve (h : P s) (l : LevelId) : P (s.serve l) := by
  unfold State.serve
  split
  · exact h
  · exact reads.served s l h

theorem QueuesRead.retire (h : P s) (l : LevelId) (r : ServiceRecord) (o : RetireOutcome) : P (s.retire l r o) := by
  have requested : P (((s.setInService l none).countRetire l o).requestRelease r.record.origin
      (releaseOf r.record (releaseOutcomeOf o))) :=
    reads.requestRelease _ _ _ (reads.level _ l _ (List.Sublist.refl _) rfl (by cases o <;> rfl) (reads.retired s l h))
  unfold State.retire
  refine reads.serve ?_ l
  cases o with
  | lapsed => exact reads.setNotices _ _ requested
  | done => exact requested
  | reject => exact requested
  | flushed => exact requested

theorem QueuesRead.flush (h : P s) (l : LevelId) : P (s.flush l) := by
  have retired : P (s.flushService l) := by
    unfold State.flushService
    split
    · exact reads.retire h l _ .flushed
    · exact h
  have emptied : P ((s.flushService l).emptyQueue l) := reads.level _ l _ (List.nil_sublist _) rfl rfl retired
  exact foldl_keeps emptied fun u r _ hu => reads.releaseIfHeld hu r .flushed

/-- An abort return puts the record at the head of its queue, the tail record dropped if the limit is exceeded (R96). -/
theorem QueuesRead.abortReturn {r : Record}
    (put : ∀ queue, queue.Sublist (r :: (s.levelAt r.level).queue) →
      queue.length ≤ (s.levelAt r.level).queue.length ∨ queue.length ≤ (s.levelAt r.level).settings.limit.toNat →
      P (s.setLevel r.level (Level.raiseHighWater { s.levelAt r.level with queue := queue }))) : P (s.abortReturn r) := by
  unfold State.abortReturn
  split_ifs with exceeds
  · have dropped := put (r :: (s.levelAt r.level).queue).dropLast (List.dropLast_sublist _) (.inl (by simp))
    exact reads.releaseIfHeld (reads.countDrop dropped _) _ .refused
  · exact put _ (List.Sublist.refl _) (.inr (by simpa using exceeds))

/-- An admission merges into a pending record, changes nothing that the predicate reads, or appends its record where there is room,
a free record and no duplicate, after the displacement of a record if need be (R90 to R93). -/
theorem QueuesRead.admission (h : P s) {q : Record}
    (merged : ∀ queue, q.kind = .posted → mergeFirst q (s.levelAt q.level).queue = some queue →
      P (s.setLevel q.level { s.levelAt q.level with queue := queue }))
    (appended : ∀ u, P u → u.isDuplicate q = false → u.freeRecords ≠ 0 →
      ((s.levelAt q.level).queue.length ≤ (s.levelAt q.level).settings.limit.toNat →
        0 < (s.levelAt q.level).settings.limit.toNat → u.hasRoom q.level = true) →
      P (u.enqueue q).lowerMark) : P (s.admission q).1 := by
  have allocated : ∀ u, P u → u.isDuplicate q = false →
      ((s.levelAt q.level).queue.length ≤ (s.levelAt q.level).settings.limit.toNat →
        0 < (s.levelAt q.level).settings.limit.toNat → u.hasRoom q.level = true) → P (u.allocate q).1 := by
    intro u hu new room
    unfold State.allocate
    split_ifs with free
    · exact reads.refusePool hu q
    · exact appended u hu new free room
  unfold State.admission
  split
  · next t coalesced =>
    simp only [State.coalesce] at coalesced
    split_ifs at coalesced with may
    obtain ⟨queue, merge, rfl⟩ := Option.map_eq_some_iff.mp coalesced
    simp only [State.mayCoalesceNow, Bool.and_eq_true, beq_iff_eq] at may
    exact merged queue may.1.1 merge
  · split_ifs with duplicate
    · exact h
    · have new : s.isDuplicate q = false := by simpa using duplicate
      unfold State.admitToRoom
      split_ifs with room
      · exact allocated s h new fun _ _ => room
      · split
        · exact reads.releaseIfHeld (reads.countDrop h _) q .refused
        · refine allocated _ (reads.displaceHead h _) (s.displaceHead_waitsLess _ |>.isDuplicate new) ?_
          simp only [State.hasRoom, decide_eq_true_eq, Nat.not_lt] at room ⊢
          rw [State.displaceHead_queue, State.displaceHead_settings, List.length_tail]
          omega

omit reads in
/-- A classification's action is carried out: at most one admission, of a request that the event in flight gives. -/
theorem State.carryOut_keeps (setCondition : ∀ s i x, P s → P (s.setCondition i x)) (h : P s) (f : FlightEvent)
    (admits : ∀ q, (∃ kind l, q = f.request kind l) ∨ (∃ l slot, q = f.changeRequest l slot) → P (s.admission q).1)
    (a : EntryAction) : P (s.carryOut f a).1 := by
  cases a with
  | forward l => exact admits _ (.inl ⟨.posted, l, rfl⟩)
  | hold l => exact admits _ (.inl ⟨.held, l, rfl⟩)
  | track l i =>
    simp only [State.carryOut, State.track, State.trackChange]
    split_ifs
    · exact setCondition s i _ h
    · exact setCondition _ i _ (admits _ (.inr ⟨l, _, rfl⟩))
    · exact admits _ (.inr ⟨l, _, rfl⟩)
  | count => exact h
  | discard => exact h

end

end Sys2Proof.Machine
end

section
/-!
What the levels hold, step by step: their settings and counts (R87, R88), and their records (R85, R86).
-/

namespace Sys2Proof.Machine

/-! ### A level -/

section
variable {level x : Level} (h : level.Kept)
include h

theorem Level.Kept.of_shorter (queue : x.queue.length ≤ level.queue.length) (settings : x.settings = level.settings)
    (highWater : x.counts.highWater = level.counts.highWater) : x.Kept := by
  obtain ⟨positive, limit, retries, room, water⟩ := h
  rw [Level.Kept, settings, highWater]
  exact ⟨positive, limit, retries, queue.trans room, queue.trans water⟩

/-- A queue within its limit, the high-water count raised to it. -/
theorem Level.Kept.raiseHighWater {queue : List Record} (room : queue.length ≤ level.settings.limit.toNat) :
    (Level.raiseHighWater { level with queue := queue }).Kept := by
  obtain ⟨positive, limit, retries, -, -⟩ := h
  have small : queue.length % 2 ^ 16 = queue.length := Nat.mod_eq_of_lt (by omega)
  unfold Level.raiseHighWater
  split_ifs with higher
  · exact ⟨positive, limit, retries, room, by simp only [BitVec.toNat_ofNat, small, le_refl]⟩
  · exact ⟨positive, limit, retries, room, by simpa using higher⟩

theorem Level.Kept.clearCounts : level.clearCounts.Kept := by
  obtain ⟨positive, limit, retries, room, -⟩ := h
  have small : level.queue.length % 2 ^ 16 = level.queue.length := Nat.mod_eq_of_lt (by omega)
  exact ⟨positive, limit, retries, room, by simp only [Level.clearCounts, BitVec.toNat_ofNat, small, le_refl]⟩

end

theorem Level.initial_kept : Level.initial.Kept := by
  refine ⟨?_, ?_, ?_, ?_, ?_⟩ <;> decide

/-- The settings that WRITE-LEVEL takes lie in their ranges (R98). -/
theorem settingsOperand_range {ops : List Byte} {settings : LevelSettings} (legal : settingsOperand ops = some settings) :
    1 ≤ settings.limit.toNat ∧ settings.limit.toNat ≤ 32 ∧ settings.retries.toNat ≤ 7 := by
  unfold settingsOperand at legal
  split_ifs at legal with outside
  simp only [not_or, Nat.not_lt] at outside
  obtain ⟨nonzero, limit, retries⟩ := outside
  obtain ⟨policy, -, mapped⟩ := Option.bind_eq_some_iff.mp legal
  obtain ⟨coalesce, -, rfl⟩ := Option.map_eq_some_iff.mp mapped
  have positive : (operand ops 1).toNat ≠ 0 := fun zero => nonzero (BitVec.eq_of_toNat_eq zero)
  exact ⟨by dsimp only; omega, limit, retries⟩

/-! ### The levels -/

theorem State.withMask_levelAt (s : State) (mask : BitVec 16) (l : LevelId) :
    (s.setLevelUnit (s.levelUnit.withMask mask)).levelAt l = { s.levelAt l with masked := member mask l } := by
  simp [State.levelAt, LevelUnit.withMask]

section
variable {s t : State} (h : s.LevelsKept)
include h

theorem State.LevelsKept.of_same (levels : t.levelUnit.levels = s.levelUnit.levels) : t.LevelsKept := by
  intro l
  rw [State.levelAt, levels]
  exact h l

theorem State.LevelsKept.setLevel {l : LevelId} {x : Level} (kept : x.Kept) : (s.setLevel l x).LevelsKept := by
  intro m
  rw [State.setLevel_levelAt]
  split_ifs
  · exact kept
  · exact h m

end

theorem levelsKept_reads : QueuesRead State.LevelsKept where
  requestRelease _ _ _ h := h.of_same (by simp)
  setNotices _ _ h := h.of_same (by simp)
  level _ l _ queue settings highWater h := h.setLevel ((h l).of_shorter queue.length_le settings highWater)
  refusals _ _ h := h.of_same (by simp)
  retired _ _ h := h.of_same (by simp)
  served _ _ h := h.of_same (by simp)

section
variable {s t : State} (h : s.LevelsKept)
include h

theorem State.LevelsKept.trunkArrival (symbols : List Symbol) : (s.trunkArrival symbols).LevelsKept := by
  refine State.trunkArrival_keeps symbols (fun _ _ => h) fun u v _ hu => ?_
  exact State.trunkVerdict_keeps v hu (fun c => hu.of_same (by simp)) (fun l r o _ => levelsKept_reads.retire hu l r o)
    (hu.of_same (by simp)) (fun _ => hu) fun tag op operands => hu.of_same (by simp)

theorem State.LevelsKept.admission (q : Record) : (s.admission q).1.LevelsKept := by
  refine levelsKept_reads.admission h (fun queue _ merge => h.setLevel ?_) fun u hu _ _ room => ?_
  · exact (h q.level).of_shorter (mergeFirst_length merge).le rfl rfl
  · obtain ⟨positive, -, -, bounded, -⟩ := h q.level
    have room := room bounded positive
    simp only [State.hasRoom, decide_eq_true_eq] at room
    have queued : (u.enqueue q).LevelsKept := hu.setLevel ((hu q.level).raiseHighWater (by simpa using room))
    exact queued.of_same (by rw [State.lowerMark_frame])

theorem State.LevelsKept.abortReturn (r : Record) : (s.abortReturn r).LevelsKept := by
  refine levelsKept_reads.abortReturn fun queue _ length => h.setLevel ((h r.level).raiseHighWater ?_)
  have room := (h r.level).2.2.2.1
  omega

theorem State.LevelsKept.carriedOut (f : FlightEvent) : (s.carriedOut f).LevelsKept := by
  have counted : (s.countHit f).LevelsKept := h.of_same rfl
  exact State.carryOut_keeps (fun _ _ _ hu => hu.of_same (by simp)) counted f (fun q _ => counted.admission q) _

theorem State.LevelsKept.trunkDead : s.trunkDead.LevelsKept := by
  refine State.trunkDead_keeps h (fun _ => h) (fun _ _ _ => h.of_same (by simp)) fun _ _ g _ => ?_
  have down : s.trunkDown.wireAborted.LevelsKept := h.of_same (congrArg LevelUnit.levels s.trunkDown_levelUnit)
  exact State.ownAbort_keeps down (fun _ _ => down) (fun _ _ _ _ _ => down)
    (fun _ r _ _ _ => (levelsKept_reads.retired _ _ down).abortReturn r.record)
    (fun _ r _ _ => State.LevelsKept.abortReturn
      (s := s.trunkDown.wireAborted.setLevelUnit { s.trunkDown.wireAborted.levelUnit with inTransmission := none }) down r)

omit h in
theorem State.levelsKept_initial (initial : t.levelUnit = LevelUnit.initial) : t.LevelsKept := by
  intro l
  rw [State.levelAt, initial, LevelUnit.initial, look_replicate]
  exact Level.initial_kept

theorem State.LevelsKept.headTaken {l : LevelId} {r : Record} {rest : List Record} (head : (s.levelAt l).queue = r :: rest) :
    (s.setLevel l { s.levelAt l with queue := rest }).LevelsKept :=
  levelsKept_reads.level s l _ (head ▸ List.sublist_cons_self r rest) rfl rfl h

theorem State.LevelsKept.countDispatched (l : LevelId) : (s.setLevel l (s.levelAt l).countDispatched).LevelsKept :=
  levelsKept_reads.level s l _ (List.Sublist.refl _) rfl rfl h

theorem State.LevelsKept.effect (d : Effect s t) : t.LevelsKept := by
  cases d
  case nothing => exact h
  case trunkSymbols symbols => exact h.trunkArrival symbols
  case classificationEnds f inFlight => exact (h.carriedOut f).of_same (by simp)
  case postedGranted l r rest may head posted => exact (h.headTaken head).of_same rfl
  case heldGranted l r rest may head held free => exact ((h.headTaken head).countDispatched l).of_same rfl
  case postedEnds l wire =>
    unfold State.postedSent
    split
    · exact h.of_same (by simp)
    · next r _ =>
      have sent : s.trunkSent.LevelsKept := h
      exact (sent.countDispatched r.level).of_same (by simp)
  case timerLapses l r inService => exact levelsKept_reads.retire h l r .lapsed
  case countsCleared q rest data l head => exact (h.setLevel (l := l) (h l).clearCounts).of_same (by simp)
  case levelSet q rest l settings head legal room =>
    obtain ⟨positive, limit, retries⟩ := settingsOperand_range legal
    have kept : Level.Kept { s.levelAt l with settings := settings } := ⟨positive, limit, retries, room, (h l).2.2.2.2⟩
    exact (h.setLevel (l := l) kept).of_same (by simp)
  case maskSet q rest data mask head =>
    have masked : (s.setLevelUnit (s.levelUnit.withMask mask)).LevelsKept := fun l => by
      rw [State.withMask_levelAt]
      exact h l
    exact masked.of_same (by simp)
  case flushed q rest data l head => exact (levelsKept_reads.flush h l).of_same (by simp)
  case trafficReset q rest head =>
    have emptied : (s.setLevelUnit s.levelUnit.traffic).LevelsKept := fun l => by
      have empty : Level.Kept { s.levelAt l with queue := [] } := (h l).of_shorter (Nat.zero_le _) rfl rfl
      simpa [State.levelAt, LevelUnit.traffic] using empty
    exact emptied.of_same (by simp [State.answer])
  case fullReset q rest head => exact State.levelsKept_initial rfl
  all_goals exact h.of_same (by simp)

theorem State.LevelsKept.transition (d : Transition s t) : t.LevelsKept := by
  cases d with
  | waits => exact h
  | resetFalls => exact h
  | resetReleased lines =>
    rw [State.released_frame]
    exact State.levelsKept_initial rfl
  | fieldLive p => exact h.of_same (by simp)
  | fieldDead p => exact h.of_same (by simp)
  | trunkLive => exact h.of_same (by simp)
  | trunkDead => exact h.trunkDead
  | runs running effect => exact h.effect effect

end

/-! ### The events that wait -/

/-- Every event that waits has a payload of at most 8 bytes. -/
structure State.EventsKept (s : State) : Prop where
  received : ∀ p, ∀ e ∈ (look s.ports p).received, e.Kept
  inFlight : ∀ f ∈ s.classifier.inFlight, f.event.Kept
  injection : ∀ i ∈ s.classifier.injection, i.event.Kept

/-- A VALID EVENT has passed the length test of its kind (R8). -/
theorem Event.kept_of_handed {bytes : List Byte} {e : Event} (handed : Handed .field (.valid bytes))
    (parsed : parseEvent bytes = some e) : e.Kept := by
  obtain ⟨f, valid⟩ := handed.resolve_left (by simp)
  unfold frameVerdict at valid
  split_ifs at valid with _ _ unknown length _
  cases valid
  have kind : f.stored.getD 0 0 = kindEvent := by simpa [acceptedKinds] using unknown
  simp only [lengthOk, kind, lengthField, lengthMaximum, if_true, Bool.not_eq_false, Bool.and_eq_true,
    decide_eq_true_eq] at length
  obtain ⟨cond, -, rfl⟩ := Option.map_eq_some_iff.mp parsed
  exact (List.length_take_le _ _).trans length.1.2

/-- An INJECT that has passed its length test gives at most 8 bytes (R149). -/
theorem Event.kept_of_injected {ops : List Byte} {e : Event} (length : injectLengthOk ops = true)
    (legal : injectedEvent ops = some e) : e.Kept := by
  simp only [injectLengthOk, Bool.and_eq_true, decide_eq_true_eq] at length
  unfold injectedEvent at legal
  split_ifs at legal
  obtain ⟨cond, -, rfl⟩ := Option.map_eq_some_iff.mp legal
  simp only [Event.Kept, List.length_drop]
  omega

section
variable {s t : State} (h : s.EventsKept)
include h

theorem State.EventsKept.of_same (ports : t.ports = s.ports) (classifier : t.classifier = s.classifier) : t.EventsKept := by
  obtain ⟨received, inFlight, injection⟩ := h
  exact ⟨ports ▸ received, classifier ▸ inFlight, classifier ▸ injection⟩

theorem State.EventsKept.setPort {p : PortId} {x : FieldPort} (kept : ∀ e ∈ x.received, e.Kept) :
    (s.setPort p x).EventsKept := by
  refine ⟨fun q => ?_, h.inFlight, h.injection⟩
  rw [State.setPort_ports, look_put]
  split_ifs
  · exact kept
  · exact h.received q

theorem State.EventsKept.raisePort (p : PortId) (c : PortCondition) : (s.raisePort p c).EventsKept := by
  have classifier := (raisePort_touches s p c).classifier (by decide)
  refine ⟨fun q => ?_, classifier ▸ h.inFlight, classifier ▸ h.injection⟩
  rw [State.raisePort_look]
  exact h.received q

theorem State.EventsKept.requestRelease (o : Requester) (q : ReleaseRequest) : (s.requestRelease o q).EventsKept :=
  State.requestRelease_keeps o q h (fun p _ _ => h.setPort (h.received p)) fun p => h.raisePort p .releaseLost

end

theorem eventsKept_levelsUnread : LevelsUnread State.EventsKept :=
  ⟨fun _ _ h => h.of_same (by simp) (by simp), fun _ _ h => h.of_same (by simp) (by simp),
    fun _ _ h => h.of_same (by simp) (by simp), fun _ h => h.of_same (by simp) (by simp),
    fun _ _ _ h => h.of_same (by simp) (by simp), fun _ o q h => h.requestRelease o q⟩

section
variable {s t : State} (h : s.EventsKept)
include h

theorem State.EventsKept.portVerdict {p : PortId} {v : Verdict} (handed : Handed .field v) : (s.portVerdict p v).EventsKept := by
  refine State.portVerdict_keeps h (fun c => h.raisePort p c) fun bytes e valid parsed _ _ => h.setPort fun x mem => ?_
  subst valid
  rcases List.mem_append.mp mem with old | new
  · exact h.received p x old
  · rw [List.mem_singleton.mp new]
    exact Event.kept_of_handed handed parsed

theorem State.EventsKept.fieldArrival (p : PortId) (symbols : List Symbol) : (s.fieldArrival p symbols).EventsKept :=
  State.fieldArrival_keeps symbols (fun _ _ => h.setPort (h.received p)) fun _ _ handed hu => hu.portVerdict handed

theorem State.EventsKept.trunkArrival (symbols : List Symbol) : (s.trunkArrival symbols).EventsKept :=
  State.trunkArrival_keeps symbols (fun _ _ => h.of_same rfl rfl) fun _ v _ hu =>
    State.trunkVerdict_keeps v hu (fun c => hu.of_same (by simp) (by simp))
      (fun l r o _ => eventsKept_levelsUnread.retire hu l r o) (hu.of_same (by simp) (by simp)) (fun _ => hu.of_same rfl rfl)
      fun tag op operands => hu.of_same (by simp) (by simp)

theorem State.EventsKept.fieldLive (p : PortId) : (s.fieldLive p).EventsKept := by
  by_cases dead : (look s.ports p).rx = .dead
  · have live : (s.withPortRx p .hunt).EventsKept := h.setPort (h.received p)
    rw [State.fieldLive_of_dead dead]
    split_ifs
    · exact live.raisePort p .linkChange
    · exact live
  · rw [State.fieldLive_of_live dead]
    exact h

theorem State.EventsKept.fieldDead (p : PortId) : (s.fieldDead p).EventsKept := by
  by_cases dead : (look s.ports p).rx = .dead
  · rw [State.fieldDead_of_dead dead]
    exact h
  · cases running : s.resetHeld with
    | true =>
      rw [State.fieldDead_of_held running]
      exact h.setPort (h.received p)
    | false =>
      have down : (s.portDown p).EventsKept := h.setPort (h.received p)
      have cut : ((s.portDown p).portVerdict? p (look s.ports p).rx.goDead.2).EventsKept := by
        cases (look s.ports p).rx with
        | dead => exact down
        | hunt => exact down
        | inFrame _ => exact down.portVerdict (.inl rfl)
      rw [State.fieldDead_of_live running dead]
      split_ifs
      · exact cut.raisePort p .linkChange
      · exact cut

theorem State.EventsKept.trunkDead : s.trunkDead.EventsKept := by
  have same := s.trunkDown_touches
  have down : s.trunkDown.EventsKept := h.of_same (same.ports (by decide)) (same.classifier (by decide))
  refine State.trunkDead_keeps h (fun _ => h.of_same rfl rfl) (fun _ _ _ => down) fun _ _ g _ => ?_
  have aborted : s.trunkDown.wireAborted.EventsKept := down.of_same rfl rfl
  exact State.ownAbort_keeps aborted (fun _ _ => aborted.of_same rfl rfl) (fun _ _ _ _ _ => aborted.of_same rfl rfl)
    (fun _ r _ _ _ => eventsKept_levelsUnread.abortReturn (eventsKept_levelsUnread.setService _ _ aborted) r.record)
    (fun _ r _ _ => eventsKept_levelsUnread.abortReturn (eventsKept_levelsUnread.setLevelUnit _ _ aborted) r)

omit h in
/-- A port that has lost its waiting events. -/
theorem State.eventsKept_of_empty (received : ∀ p, (look t.ports p).received = []) (classifier : t.classifier = Classifier.initial) :
    t.EventsKept := by
  refine ⟨fun p e mem => ?_, ?_, ?_⟩
  · rw [received p] at mem
    cases mem
  · simp [classifier, Classifier.initial]
  · simp [classifier, Classifier.initial]

theorem State.EventsKept.carriedOut (f : FlightEvent) : (s.carriedOut f).EventsKept :=
  eventsKept_levelsUnread.carryOut (fun _ _ _ hu => hu.of_same (by simp) (by simp)) (s := s.countHit f)
    (h.of_same rfl rfl) f _

omit h in
theorem FieldPort.configure_received {port : FieldPort} {enabled notices : Bool} {e : Event}
    (mem : e ∈ (port.configure enabled notices).received) : e ∈ port.received := by
  unfold FieldPort.configure at mem
  split_ifs at mem
  · exact mem
  · cases mem
  · exact mem

theorem State.EventsKept.effect (d : Effect s t) : t.EventsKept := by
  cases d
  case nothing => exact h
  case fieldSymbols p symbols => exact h.fieldArrival p symbols
  case trunkSymbols symbols => exact h.trunkArrival symbols
  case portEventStarts p e rest may waiting =>
    have taken : (s.setPort p { look s.ports p with received := rest }).EventsKept :=
      h.setPort fun x mem => h.received p x (waiting ▸ List.mem_cons_of_mem e mem)
    exact ⟨taken.received, fun f started => by cases started; exact h.received p e (waiting ▸ List.mem_cons_self),
      h.injection⟩
  case injectionStarts i r may waiting =>
    exact ⟨h.received, fun f started => by cases started; exact h.injection i waiting, fun _ none => by cases none⟩
  case classificationEnds f inFlight =>
    have carried := h.carriedOut f
    refine ⟨?_, ?_, ?_⟩
    · simpa using carried.received
    · simp
    · simpa using h.injection
  case releaseStarts p q rest waiting may => exact h.setPort (h.received p)
  case releaseEnds p => exact h.setPort (h.received p)
  case timerLapses l r inService => exact eventsKept_levelsUnread.retire h l r .lapsed
  case flushed q rest data l head => exact (eventsKept_levelsUnread.flush h l).of_same (by simp) (by simp)
  case portRead q rest data p head =>
    have cleared : (s.setPort p { look s.ports p with conditions := 0 }).EventsKept := h.setPort (h.received p)
    exact cleared.of_same (by simp) (by simp)
  case portSet q rest data p enabled notices head =>
    have set : (s.setPort p ((look s.ports p).configure enabled notices)).EventsKept :=
      h.setPort fun e mem => h.received p e (FieldPort.configure_received mem)
    exact set.of_same (by simp) (by simp)
  case injected q rest e head free length legal =>
    exact ⟨h.received, h.inFlight, fun i filled => by cases filled; exact Event.kept_of_injected length legal⟩
  case trafficReset q rest head =>
    exact State.eventsKept_of_empty (fun p => by simp [State.answer, FieldPort.traffic]) (by simp [State.answer])
  case fullReset q rest head => exact State.eventsKept_of_empty (fun p => by simp [State.fullReset, FieldPort.full, FieldPort.initial]) rfl
  all_goals exact h.of_same (by simp) (by simp)

theorem State.EventsKept.transition (d : Transition s t) : t.EventsKept := by
  cases d with
  | waits => exact h
  | resetFalls => exact ⟨fun p => by simpa [FieldPort.hold] using h.received p, h.inFlight, h.injection⟩
  | resetReleased lines =>
    rw [State.released_frame]
    exact State.eventsKept_of_empty (fun p => by simp [State.initialised, FieldPort.initial]) rfl
  | fieldLive p => exact h.fieldLive p
  | fieldDead p => exact h.fieldDead p
  | trunkLive => exact h.of_same (by simp) (by simp)
  | trunkDead => exact h.trunkDead
  | runs running effect => exact h.effect effect

end

/-! ### The records of the levels -/

/-- Every record is pending at its own level, or held and in service there, or posted and in transmission. -/
structure State.LevelRecordsKept (s : State) : Prop where
  queued : ∀ l, ∀ r ∈ (s.levelAt l).queue, r.Kept l
  inService : ∀ l, ∀ r ∈ s.inServiceAt l, r.record.Kept l ∧ r.record.kind = .held
  transmitted : ∀ r ∈ s.levelUnit.inTransmission, r.Kept r.level ∧ r.kind = .posted

theorem State.recordsKept_iff {s : State} : s.RecordsKept ↔ s.LevelRecordsKept ∧ s.EventsKept := by
  constructor
  · rintro ⟨queued, inService, transmitted, received, inFlight, injection⟩
    exact ⟨⟨queued, inService, transmitted⟩, ⟨received, inFlight, injection⟩⟩
  · rintro ⟨⟨queued, inService, transmitted⟩, ⟨received, inFlight, injection⟩⟩
    exact ⟨queued, inService, transmitted, received, inFlight, injection⟩

theorem Record.Kept.at_level {r : Record} {l : LevelId} (h : r.Kept l) : r.Kept r.level := by
  have level := h.1
  subst level
  exact h

/-- What a decision asks for is a legal record (R54). -/
theorem FlightEvent.request_kept {f : FlightEvent} (payload : f.event.Kept) (kind : RecordKind) (l : LevelId) :
    (f.request kind l).Kept l :=
  ⟨rfl, by simp [FlightEvent.request], payload, by cases kind <;> simp [FlightEvent.request]⟩

/-- What a change asks for is a legal record (R65). -/
theorem FlightEvent.changeRequest_kept {f : FlightEvent} (payload : f.event.Kept) (l : LevelId) (slot : ConditionSlot) :
    (f.changeRequest l slot).Kept l :=
  ⟨rfl, satInc_ne_zero (by decide) _, payload, by simp [FlightEvent.changeRequest]⟩

theorem mergedInto_kept {r q : Record} {l : LevelId} (h : r.Kept l) (payload : q.payload.length ≤ 8) :
    (mergedInto r q).Kept l := by
  obtain ⟨level, -, -, coalescing⟩ := h
  exact ⟨level, satInc_ne_zero (by decide) _, payload, coalescing⟩

section
variable {s t : State} (h : s.LevelRecordsKept)
include h

theorem State.LevelRecordsKept.of_same (levelUnit : t.levelUnit = s.levelUnit) (service : t.service.inService = s.service.inService) :
    t.LevelRecordsKept := by
  obtain ⟨queued, inService, transmitted⟩ := h
  refine ⟨fun l => ?_, fun l => ?_, levelUnit ▸ transmitted⟩
  · rw [State.levelAt, levelUnit]
    exact queued l
  · rw [State.inServiceAt, service]
    exact inService l

theorem State.LevelRecordsKept.of_queues (queues : ∀ l, (t.levelAt l).queue = (s.levelAt l).queue)
    (inService : ∀ l, t.inServiceAt l = s.inServiceAt l)
    (transmitted : t.levelUnit.inTransmission = s.levelUnit.inTransmission) : t.LevelRecordsKept :=
  ⟨fun l => queues l ▸ h.queued l, fun l => inService l ▸ h.inService l, transmitted ▸ h.transmitted⟩

theorem State.LevelRecordsKept.setLevel {l : LevelId} {x : Level} (kept : ∀ r ∈ x.queue, r.Kept l) :
    (s.setLevel l x).LevelRecordsKept := by
  refine ⟨fun m => ?_, h.inService, h.transmitted⟩
  rw [State.setLevel_levelAt]
  split_ifs with same
  · exact same ▸ kept
  · exact h.queued m

theorem State.LevelRecordsKept.setInService {l : LevelId} {x : Option ServiceRecord}
    (kept : ∀ r ∈ x, r.record.Kept l ∧ r.record.kind = .held) : (s.setInService l x).LevelRecordsKept := by
  refine ⟨h.queued, fun m => ?_, h.transmitted⟩
  rw [State.setInService_inServiceAt]
  split_ifs with same
  · exact same ▸ kept
  · exact h.inService m

/-- A record in service whose sub-state, attempt or ticket alone changes. -/
theorem State.LevelRecordsKept.sameRecord {l : LevelId} {r x : ServiceRecord} (found : s.inServiceAt l = some r)
    (same : x.record = r.record) : (s.setInService l (some x)).LevelRecordsKept := by
  refine h.setInService fun y is => ?_
  cases is
  rw [same]
  exact h.inService l r found

theorem State.LevelRecordsKept.setTransmission {x : Option Record} (kept : ∀ r ∈ x, r.Kept r.level ∧ r.kind = .posted) :
    (s.setLevelUnit { s.levelUnit with inTransmission := x }).LevelRecordsKept :=
  ⟨h.queued, h.inService, kept⟩

end

theorem levelRecordsKept_reads : QueuesRead State.LevelRecordsKept where
  requestRelease _ _ _ h := h.of_same (by simp) (by simp)
  setNotices _ _ h := h.of_same (by simp) (by simp)
  level _ l _ queue _ _ h := h.setLevel fun r mem => h.queued l r (queue.subset mem)
  refusals _ _ h := ⟨h.queued, h.inService, h.transmitted⟩
  retired _ _ h := h.setInService (by simp)
  served _ _ h := h.of_same (by simp) (by simp)

section
variable {s t : State} (h : s.LevelRecordsKept)
include h

theorem State.LevelRecordsKept.trunkArrival (symbols : List Symbol) : (s.trunkArrival symbols).LevelRecordsKept :=
  State.trunkArrival_keeps symbols (fun _ _ => h.of_same rfl rfl) fun _ v _ hu =>
    State.trunkVerdict_keeps v hu (fun c => hu.of_same (by simp) (by simp))
      (fun l r o _ => levelRecordsKept_reads.retire hu l r o) (hu.of_same (by simp) (by simp)) (fun _ => hu.of_same rfl rfl)
      fun tag op operands => hu.of_same (by simp) (by simp)

theorem State.LevelRecordsKept.admission {q : Record} (kept : q.Kept q.level) : (s.admission q).1.LevelRecordsKept := by
  refine levelRecordsKept_reads.admission h (fun queue _ merge => h.setLevel fun x mem => ?_) fun u hu _ _ _ => ?_
  · obtain ⟨before, r, after, old, -, rfl⟩ := mergeFirst_eq_some merge
    have waiting := h.queued q.level
    rw [old] at waiting
    simp only [List.mem_append, List.mem_cons] at mem waiting
    rcases mem with early | rfl | late
    · exact waiting x (.inl early)
    · exact mergedInto_kept (waiting r (.inr (.inl rfl))) kept.2.2.1
    · exact waiting x (.inr (.inr late))
  · have queued : (u.enqueue q).LevelRecordsKept := hu.setLevel fun x mem => by
      rw [Level.raiseHighWater_queue] at mem
      rcases List.mem_append.mp mem with old | new
      · exact hu.queued q.level x old
      · rw [List.mem_singleton.mp new]
        exact kept
    rw [State.lowerMark_frame]
    exact ⟨queued.queued, queued.inService, queued.transmitted⟩

theorem State.LevelRecordsKept.abortReturn {r : Record} (kept : r.Kept r.level) : (s.abortReturn r).LevelRecordsKept := by
  refine levelRecordsKept_reads.abortReturn fun queue shorter _ => h.setLevel fun x mem => ?_
  rw [Level.raiseHighWater_queue] at mem
  rcases List.mem_cons.mp (shorter.subset mem) with rfl | old
  · exact kept
  · exact h.queued r.level x old

theorem State.LevelRecordsKept.carriedOut {f : FlightEvent} (payload : f.event.Kept) : (s.carriedOut f).LevelRecordsKept := by
  have counted : (s.countHit f).LevelRecordsKept := h.of_same rfl rfl
  refine State.carryOut_keeps (fun _ _ _ hu => hu.of_same (by simp) (by simp)) counted f (fun q asked => ?_) _
  rcases asked with ⟨kind, l, rfl⟩ | ⟨l, slot, rfl⟩
  · exact counted.admission (f.request_kept payload kind l)
  · exact counted.admission (f.changeRequest_kept payload l slot)

theorem State.LevelRecordsKept.trunkDead : s.trunkDead.LevelRecordsKept := by
  have same := s.trunkDown_touches
  have down : s.trunkDown.LevelRecordsKept :=
    h.of_same (same.levelUnit (by decide)) (congrArg ServiceUnit.inService (same.service (by decide)))
  refine State.trunkDead_keeps h (fun _ => h.of_same rfl rfl) (fun _ _ _ => down) fun _ _ g _ => ?_
  have aborted : s.trunkDown.wireAborted.LevelRecordsKept := down.of_same rfl rfl
  refine State.ownAbort_keeps aborted (fun _ _ => aborted.of_same rfl rfl) (fun l r _ found _ => aborted.sameRecord found rfl)
    (fun l r _ found _ => ?_) fun l r _ found => ?_
  · exact (levelRecordsKept_reads.retired _ _ aborted).abortReturn (aborted.inService l r found).1.at_level
  · exact (aborted.setTransmission (by simp)).abortReturn (aborted.transmitted r found).1

omit h in
/-- A state in which no record waits or is in transmission. -/
theorem State.levelRecordsKept_of_empty (queues : ∀ l, (t.levelAt l).queue = []) (inService : ∀ l, t.inServiceAt l = none)
    (transmitted : t.levelUnit.inTransmission = none) : t.LevelRecordsKept :=
  ⟨fun l => by simp [queues l], fun l => by simp [inService l], by simp [transmitted]⟩

omit h in
theorem State.levelRecordsKept_initial (levelUnit : t.levelUnit = LevelUnit.initial)
    (service : t.service = ServiceUnit.initial) : t.LevelRecordsKept := by
  refine State.levelRecordsKept_of_empty (fun l => ?_) (fun l => ?_) ?_
  · simp [State.levelAt, levelUnit, LevelUnit.initial, Level.initial]
  · simp [State.inServiceAt, service, ServiceUnit.initial]
  · simp [levelUnit, LevelUnit.initial]

theorem State.LevelRecordsKept.headTaken {l : LevelId} {r : Record} {rest : List Record} (head : (s.levelAt l).queue = r :: rest) :
    (s.setLevel l { s.levelAt l with queue := rest }).LevelRecordsKept ∧ r.Kept l :=
  ⟨levelRecordsKept_reads.level s l _ (head ▸ List.sublist_cons_self r rest) rfl rfl h,
    h.queued l r (head ▸ List.mem_cons_self)⟩

theorem State.LevelRecordsKept.awaitAfter (l : LevelId) (ticket : Byte) (inPhase : SubState → Bool) :
    (s.awaitAfter l ticket inPhase).LevelRecordsKept := by
  unfold State.awaitAfter
  split
  · next r reported =>
    unfold State.reported at reported
    split at reported
    · next r' found =>
      split at reported
      · cases reported
        exact h.sameRecord found rfl
      · cases reported
    · cases reported
  · exact h

theorem State.LevelRecordsKept.effect (events : s.EventsKept) (d : Effect s t) : t.LevelRecordsKept := by
  cases d
  case nothing => exact h
  case trunkSymbols symbols => exact h.trunkArrival symbols
  case classificationEnds f inFlight =>
    exact (h.carriedOut (events.inFlight f inFlight)).of_same (by simp) (by simp)
  case resendGranted l r may found waits =>
    have resending : (s.setInService l (some { r with phase := .resending, attempt := r.attempt + 1 })).LevelRecordsKept :=
      h.sameRecord found rfl
    exact resending.of_same (by simp) (by simp)
  case postedGranted l r rest may head posted =>
    obtain ⟨taken, kept⟩ := h.headTaken head
    refine (taken.setTransmission (x := some r) fun x is => ?_).of_same rfl rfl
    cases is
    exact ⟨kept.at_level, posted⟩
  case heldGranted l r rest may head held free =>
    obtain ⟨taken, kept⟩ := h.headTaken head
    have counted := levelRecordsKept_reads.level _ l (Level.countDispatched _) (List.Sublist.refl _) rfl rfl taken
    refine (counted.setInService (l := l) (x := some
      { record := r, ticket := s.newTicket, attempt := 1, phase := .dispatching }) fun x is => ?_).of_same rfl rfl
    cases is
    exact ⟨kept, held⟩
  case postedEnds l wire =>
    have sent : s.trunkSent.LevelRecordsKept := h.of_same rfl rfl
    unfold State.postedSent
    split
    · exact sent
    · next r _ =>
      have freed := sent.setTransmission (x := none) (by simp)
      exact levelRecordsKept_reads.serve (levelRecordsKept_reads.level _ r.level (Level.countDispatched _) (List.Sublist.refl _)
        rfl rfl freed) r.level
  case heldEnds l ticket wire => exact State.LevelRecordsKept.awaitAfter (s := s.trunkSent) (h.of_same rfl rfl) l ticket _
  case resendEnds l ticket wire => exact State.LevelRecordsKept.awaitAfter (s := s.trunkSent) (h.of_same rfl rfl) l ticket _
  case timerResends l r units found timed remain => exact h.sameRecord found rfl
  case timerLapses l r inService => exact levelRecordsKept_reads.retire h l r .lapsed
  case countsCleared q rest data l head =>
    have cleared : (s.setLevel l (s.levelAt l).clearCounts).LevelRecordsKept := h.setLevel (h.queued l)
    exact cleared.of_same (by simp) (by simp)
  case levelSet q rest l settings head legal room =>
    have set : (s.setLevel l { s.levelAt l with settings := settings }).LevelRecordsKept := h.setLevel (h.queued l)
    exact set.of_same (by simp) (by simp)
  case maskSet q rest data mask head =>
    have masked : (s.setLevelUnit (s.levelUnit.withMask mask)).LevelRecordsKept :=
      h.of_queues (fun l => by rw [State.withMask_levelAt]) (fun l => by simp) (by simp [LevelUnit.withMask])
    exact masked.of_same (by simp) (by simp)
  case poolRead q rest data head =>
    have read : (s.setLevelUnit { s.levelUnit with lowWater := byteOf s.freeRecords, refusals := 0 }).LevelRecordsKept :=
      ⟨h.queued, h.inService, h.transmitted⟩
    exact read.of_same (by simp) (by simp)
  case flushed q rest data l head => exact (levelRecordsKept_reads.flush h l).of_same (by simp) (by simp)
  case trafficReset q rest head =>
    refine State.levelRecordsKept_of_empty (fun l => ?_) (fun l => ?_) ?_ <;>
      simp [State.answer, State.levelAt, State.inServiceAt, LevelUnit.traffic, ServiceUnit.traffic]
  case fullReset q rest head => exact State.levelRecordsKept_initial rfl rfl
  all_goals exact h.of_same (by simp) (by simp)

theorem State.LevelRecordsKept.transition (events : s.EventsKept) (d : Transition s t) : t.LevelRecordsKept := by
  cases d with
  | waits => exact h
  | resetFalls => exact h.of_same rfl rfl
  | resetReleased lines =>
    rw [State.released_frame]
    exact State.levelRecordsKept_initial rfl rfl
  | fieldLive p => exact h.of_same (by simp) (by simp)
  | fieldDead p => exact h.of_same (by simp) (by simp)
  | trunkLive => exact h.of_same (by simp) (by simp)
  | trunkDead => exact h.trunkDead
  | runs running effect => exact h.effect events effect

end

/-- Settles O57: the bounds of a level, and the places of the records with the payloads of the events that wait. -/
theorem everyStepKeepsTheLevels : Obligations.EveryStepKeepsTheLevels := by
  constructor
  · exact step_keeps (fun _ _ h => h) fun _ _ h d => h.transition d
  · refine step_keeps (fun _ _ h => h) fun s t h d => ?_
    rw [State.recordsKept_iff] at h ⊢
    obtain ⟨records, events⟩ := h
    exact ⟨records.transition events d, events.transition d⟩

end Sys2Proof.Machine
end

section
/-!
What the record pool holds, step by step (R85, R93): how many records are not free, when a posted record is in transmission, and
that no held record waits twice (R91).
-/

namespace Sys2Proof.Machine

/-! ### Counting -/

section
variable {s t : State}

theorem State.usedRecords_congr (queues : ∀ l, (t.levelAt l).queue = (s.levelAt l).queue)
    (inService : ∀ l, t.inServiceAt l = s.inServiceAt l)
    (transmitted : t.levelUnit.inTransmission = s.levelUnit.inTransmission) : t.usedRecords = s.usedRecords := by
  simp only [State.usedRecords, State.pendingRecords, State.recordsInService, State.recordsInTransmission, queues, inService,
    transmitted]

theorem State.usedRecords_same (levelUnit : t.levelUnit = s.levelUnit) (inService : t.service.inService = s.service.inService) :
    t.usedRecords = s.usedRecords :=
  State.usedRecords_congr (fun l => by rw [State.levelAt, levelUnit, State.levelAt])
    (fun l => by rw [State.inServiceAt, inService, State.inServiceAt]) (by rw [levelUnit])

theorem State.usedRecords_setLevel (l : LevelId) (x : Level) :
    (s.setLevel l x).usedRecords + (s.levelAt l).queue.length = s.usedRecords + x.queue.length := by
  have pending := s.pendingRecords_setLevel l x
  have service : (s.setLevel l x).recordsInService = s.recordsInService := rfl
  have transmission : (s.setLevel l x).recordsInTransmission = s.recordsInTransmission := rfl
  rw [State.usedRecords, State.usedRecords, service, transmission]
  omega

theorem State.usedRecords_setInService (l : LevelId) (x : Option ServiceRecord) :
    (s.setInService l x).usedRecords + (s.inServiceAt l).isSome.toNat = s.usedRecords + x.isSome.toNat := by
  have service := s.recordsInService_setInService l x
  have pending : (s.setInService l x).pendingRecords = s.pendingRecords := rfl
  have transmission : (s.setInService l x).recordsInTransmission = s.recordsInTransmission := rfl
  rw [State.usedRecords, State.usedRecords, pending, transmission]
  omega

theorem State.usedRecords_setTransmission (x : Option Record) :
    (s.setLevelUnit { s.levelUnit with inTransmission := x }).usedRecords + s.levelUnit.inTransmission.isSome.toNat =
      s.usedRecords + x.isSome.toNat := by
  have pending : (s.setLevelUnit { s.levelUnit with inTransmission := x }).pendingRecords = s.pendingRecords := rfl
  have service : (s.setLevelUnit { s.levelUnit with inTransmission := x }).recordsInService = s.recordsInService := rfl
  rw [State.usedRecords, State.usedRecords, pending, service]
  cases x <;> cases transmitted : s.levelUnit.inTransmission <;> simp [State.recordsInTransmission, transmitted]

/-- A state in which no record waits or is in transmission. -/
theorem State.usedRecords_of_empty (queues : ∀ l, (t.levelAt l).queue = []) (inService : ∀ l, t.inServiceAt l = none)
    (transmitted : t.levelUnit.inTransmission = none) : t.usedRecords = 0 := by
  simp [State.usedRecords, State.pendingRecords, State.recordsInService, State.recordsInTransmission, queues, inService,
    transmitted]

end

/-! ### The counts of the pool -/

/-- The pool has room for `room` records more, and the low-water mark leaves that room too. -/
structure State.PoolCounts (room : Nat) (s : State) : Prop where
  used : s.usedRecords + room ≤ 128
  lowWater : s.levelUnit.lowWater.toNat + s.usedRecords + room ≤ 128

/-- While RESET_N is not held low, a posted record is in transmission only while its frame is on the wire. -/
def State.PostedOnWire (s : State) : Prop :=
  s.resetHeld = false → s.levelUnit.inTransmission.isSome → s.onWire.any GrantedFrame.isPosted = true

theorem State.poolKept_iff {s : State} : s.PoolKept ↔ s.PoolCounts 0 ∧ s.PostedOnWire := by
  constructor
  · rintro ⟨used, lowWater, wire⟩
    simp only [State.freeRecords, Config.poolSize] at used lowWater
    exact ⟨⟨by omega, by omega⟩, wire⟩
  · rintro ⟨⟨used, lowWater⟩, wire⟩
    simp only [State.PoolKept, State.freeRecords, Config.poolSize]
    exact ⟨by omega, by omega, wire⟩

section
variable {s t : State} {room : Nat} (h : s.PoolCounts room)
include h

theorem State.PoolCounts.of_fewer {more : Nat} (used : t.usedRecords + more ≤ s.usedRecords + room)
    (lowWater : t.levelUnit.lowWater = s.levelUnit.lowWater) : t.PoolCounts more := by
  obtain ⟨usedKept, lowWaterKept⟩ := h
  refine ⟨by omega, ?_⟩
  rw [lowWater]
  omega

theorem State.PoolCounts.of_same (levelUnit : t.levelUnit = s.levelUnit)
    (inService : t.service.inService = s.service.inService) : t.PoolCounts room := by
  have used := State.usedRecords_same levelUnit inService
  exact h.of_fewer (by omega) (by rw [levelUnit])

theorem State.PoolCounts.setLevel {l : LevelId} {x : Level} {more : Nat}
    (fits : x.queue.length + more ≤ (s.levelAt l).queue.length + room) : (s.setLevel l x).PoolCounts more := by
  have counted := s.usedRecords_setLevel l x
  exact h.of_fewer (by omega) rfl

theorem State.PoolCounts.setInService {l : LevelId} {x : Option ServiceRecord} {more : Nat}
    (fits : x.isSome.toNat + more ≤ (s.inServiceAt l).isSome.toNat + room) : (s.setInService l x).PoolCounts more := by
  have counted := s.usedRecords_setInService l x
  exact h.of_fewer (by omega) rfl

theorem State.PoolCounts.setTransmission {x : Option Record} {more : Nat}
    (fits : x.isSome.toNat + more ≤ s.levelUnit.inTransmission.isSome.toNat + room) :
    (s.setLevelUnit { s.levelUnit with inTransmission := x }).PoolCounts more := by
  have counted := s.usedRecords_setTransmission x
  generalize ended : s.setLevelUnit { s.levelUnit with inTransmission := x } = t at counted ⊢
  exact h.of_fewer (by omega) (by rw [← ended, State.setLevelUnit_levelUnit])

end

theorem poolCounts_reads (room : Nat) : QueuesRead (State.PoolCounts room) where
  requestRelease _ _ _ h := h.of_same (by simp) (by simp)
  setNotices _ _ h := h.of_same (by simp) (by simp)
  level _ _ _ queue _ _ h := h.setLevel (Nat.add_le_add_right queue.length_le room)
  refusals _ _ h := h.of_fewer (State.usedRecords_congr (fun _ => rfl) (fun _ => rfl) rfl ▸ le_rfl) rfl
  retired _ _ h := h.setInService (by simp)
  served _ _ h := h.of_same (by simp) (by simp)

section
variable {s t : State}

/-- A record appended while one was free, and the low-water mark lowered to what is free after it (R93). -/
theorem State.PoolCounts.enqueue (h : s.PoolCounts 0) {q : Record} (free : s.freeRecords ≠ 0) :
    (s.enqueue q).lowerMark.PoolCounts 0 := by
  have counted := s.enqueue_usedRecords q
  have used : (s.enqueue q).lowerMark.usedRecords = s.usedRecords + 1 := by
    rw [← counted, State.lowerMark_frame]
    exact State.usedRecords_congr (fun _ => rfl) (fun _ => rfl) rfl
  obtain ⟨-, lowWater⟩ := h
  simp only [State.freeRecords, Config.poolSize] at free
  refine ⟨by omega, ?_⟩
  have mark : (s.enqueue q).lowerMark.levelUnit.lowWater.toNat ≤ (s.enqueue q).freeRecords := by
    rw [State.lowerMark_eq]
    simp only [State.setLevelUnit_levelUnit, BitVec.toNat_ofNat]
    exact (Nat.mod_le _ _).trans (min_le_right _ _)
  simp only [State.freeRecords, Config.poolSize, counted] at mark
  omega

theorem State.PoolCounts.admission (h : s.PoolCounts 0) (q : Record) : (s.admission q).1.PoolCounts 0 := by
  refine (poolCounts_reads 0).admission h (fun queue _ merge => ?_) fun u hu _ free _ => hu.enqueue free
  exact h.setLevel (mergeFirst_length merge).le

/-- An abort return needs room for the one record that comes back. -/
theorem State.PoolCounts.abortReturn (h : s.PoolCounts 1) (r : Record) : (s.abortReturn r).PoolCounts 0 := by
  refine (poolCounts_reads 0).abortReturn fun queue shorter _ => h.setLevel ?_
  rw [Level.raiseHighWater_queue]
  exact shorter.length_le

theorem State.PoolCounts.trunkArrival (h : s.PoolCounts 0) (symbols : List Symbol) : (s.trunkArrival symbols).PoolCounts 0 :=
  State.trunkArrival_keeps symbols (fun _ _ => h.of_same rfl rfl) fun _ v _ hu =>
    State.trunkVerdict_keeps v hu (fun c => hu.of_same (by simp) (by simp))
      (fun l r o _ => (poolCounts_reads 0).retire hu l r o) (hu.of_same (by simp) (by simp)) (fun _ => hu.of_same rfl rfl)
      fun tag op operands => hu.of_same (by simp) (by simp)

/-- A record that leaves service makes room for one. -/
theorem State.PoolCounts.serviceLeft (h : s.PoolCounts 0) {l : LevelId} {r : ServiceRecord} (found : s.inServiceAt l = some r) :
    (s.setInService l none).PoolCounts 1 := h.setInService (by simp [found])

/-- A posted record that is in transmission no longer makes room for one. -/
theorem State.PoolCounts.transmissionEnded (h : s.PoolCounts 0) {r : Record} (transmitted : s.levelUnit.inTransmission = some r) :
    (s.setLevelUnit { s.levelUnit with inTransmission := none }).PoolCounts 1 := h.setTransmission (by simp [transmitted])

/-- A level's head record that is taken makes room for one. -/
theorem State.PoolCounts.headTaken (h : s.PoolCounts 0) {l : LevelId} {r : Record} {rest : List Record}
    (head : (s.levelAt l).queue = r :: rest) : (s.setLevel l { s.levelAt l with queue := rest }).PoolCounts 1 :=
  h.setLevel (by simp [head])

theorem State.PoolCounts.changed (h : s.PoolCounts 0) {l : LevelId} {r x : ServiceRecord} (found : s.inServiceAt l = some r) :
    (s.setInService l (some x)).PoolCounts 0 := h.setInService (by simp [found])

theorem State.reported_inService {l : LevelId} {ticket : Byte} {inPhase : SubState → Bool} {r : ServiceRecord}
    (h : s.reported l ticket inPhase = some r) : s.inServiceAt l = some r ∧ r.ticket = ticket ∧ inPhase r.phase = true := by
  unfold State.reported at h
  split at h
  · next x found =>
    split at h
    · next test =>
      cases h
      simpa [found] using test
    · cases h
  · cases h

theorem State.PoolCounts.awaitAfter (h : s.PoolCounts 0) (l : LevelId) (ticket : Byte) (inPhase : SubState → Bool) :
    (s.awaitAfter l ticket inPhase).PoolCounts 0 := by
  unfold State.awaitAfter
  split
  · next r reported => exact h.changed (State.reported_inService reported).1
  · exact h

theorem State.PoolCounts.trunkDead (h : s.PoolCounts 0) : s.trunkDead.PoolCounts 0 := by
  have same := s.trunkDown_touches
  have down : s.trunkDown.PoolCounts 0 :=
    h.of_same (same.levelUnit (by decide)) (congrArg ServiceUnit.inService (same.service (by decide)))
  refine State.trunkDead_keeps h (fun _ => h.of_same rfl rfl) (fun _ _ _ => down) fun _ _ g _ => ?_
  have aborted : s.trunkDown.wireAborted.PoolCounts 0 := down.of_same rfl rfl
  exact State.ownAbort_keeps aborted (fun _ _ => aborted.of_same rfl rfl) (fun _ _ _ found _ => aborted.changed found)
    (fun _ r _ found _ => (aborted.serviceLeft found).abortReturn r.record)
    (fun _ r _ transmitted => (aborted.transmissionEnded transmitted).abortReturn r)

theorem State.PoolCounts.carriedOut (h : s.PoolCounts 0) (f : FlightEvent) : (s.carriedOut f).PoolCounts 0 := by
  have counted : (s.countHit f).PoolCounts 0 := h.of_same rfl rfl
  exact State.carryOut_keeps (fun _ _ _ hu => hu.of_same (by simp) (by simp)) counted f (fun q _ => counted.admission q) _

theorem State.poolCounts_of_empty (queues : ∀ l, (t.levelAt l).queue = []) (inService : ∀ l, t.inServiceAt l = none)
    (transmitted : t.levelUnit.inTransmission = none) (lowWater : t.levelUnit.lowWater = Config.records) : t.PoolCounts 0 := by
  have used := State.usedRecords_of_empty queues inService transmitted
  have full : Config.records.toNat = 128 := by decide
  exact ⟨by omega, by rw [lowWater]; omega⟩

theorem State.poolCounts_initial (levelUnit : t.levelUnit = LevelUnit.initial) (service : t.service = ServiceUnit.initial) :
    t.PoolCounts 0 := by
  refine State.poolCounts_of_empty (fun l => ?_) (fun l => ?_) ?_ ?_
  · simp [State.levelAt, levelUnit, LevelUnit.initial, Level.initial]
  · simp [State.inServiceAt, service, ServiceUnit.initial]
  · simp [levelUnit, LevelUnit.initial]
  · simp [levelUnit, LevelUnit.initial]

end

/-! ### A posted record in transmission -/

section
variable {s t : State} (h : s.PostedOnWire)
include h

theorem State.PostedOnWire.of_same (held : t.resetHeld = s.resetHeld)
    (transmitted : t.levelUnit.inTransmission = s.levelUnit.inTransmission) (tx : t.trunk.tx = s.trunk.tx) : t.PostedOnWire := by
  rw [State.PostedOnWire, held, transmitted, State.onWire, tx]
  exact h

/-- While no posted frame is on the wire, no record is in transmission. -/
theorem State.PostedOnWire.none_of_wire (running : s.Running) (wire : s.onWire.any GrantedFrame.isPosted = false) :
    s.levelUnit.inTransmission = none := by
  rw [← Option.not_isSome_iff_eq_none]
  intro transmitted
  rw [h running transmitted] at wire
  cases wire

omit h in
theorem State.postedOnWire_of_none (transmitted : s.levelUnit.inTransmission = none) : s.PostedOnWire := by
  intro _ some
  rw [transmitted] at some
  cases some

end

theorem postedOnWire_reads : QueuesRead State.PostedOnWire where
  requestRelease _ _ _ h := h.of_same (by simp) (by simp) (by simp)
  setNotices _ _ h := h.of_same (by simp) (by simp) (by simp)
  level _ _ _ _ _ _ h := h.of_same (by simp) (by simp) (by simp)
  refusals _ _ h := h.of_same (by simp) (by simp) (by simp)
  retired _ _ h := h.of_same (by simp) (by simp) (by simp)
  served _ _ h := h.of_same (by simp) (by simp) (by simp)

section
variable {s t : State} (h : s.PostedOnWire)
include h

theorem State.PostedOnWire.trunkArrival (symbols : List Symbol) : (s.trunkArrival symbols).PostedOnWire :=
  State.trunkArrival_keeps symbols (fun _ _ => h.of_same rfl rfl rfl) fun _ v _ hu =>
    State.trunkVerdict_keeps v hu (fun c => hu.of_same (by simp) (by simp) (by simp))
      (fun l r o _ => postedOnWire_reads.retire hu l r o) (hu.of_same (by simp) (by simp) (by simp))
      (fun _ => hu.of_same rfl rfl rfl) fun tag op operands => hu.of_same (by simp) (by simp) (by simp)

theorem State.PostedOnWire.admission (q : Record) : (s.admission q).1.PostedOnWire := by
  refine postedOnWire_reads.admission h (fun _ _ _ => h.of_same (by simp) (by simp) (by simp)) fun u hu _ _ _ => ?_
  rw [State.lowerMark_frame]
  exact hu.of_same rfl rfl rfl

theorem State.PostedOnWire.abortReturn (r : Record) : (s.abortReturn r).PostedOnWire :=
  postedOnWire_reads.abortReturn fun _ _ _ => h.of_same (by simp) (by simp) (by simp)

theorem State.PostedOnWire.carriedOut (f : FlightEvent) : (s.carriedOut f).PostedOnWire := by
  have counted : (s.countHit f).PostedOnWire := h.of_same rfl rfl rfl
  exact State.carryOut_keeps (fun _ _ _ hu => hu.of_same (by simp) (by simp) (by simp)) counted f
    (fun q _ => counted.admission q) _

/-- A granted frame finds the wire free, so no posted record is in transmission. -/
theorem State.PostedOnWire.none_of_free (running : s.Running) (free : s.trunkFree = true) :
    s.levelUnit.inTransmission = none := by
  simp only [State.trunkFree, Bool.and_eq_true, Option.isNone_iff_eq_none] at free
  exact h.none_of_wire running (by simp [State.onWire, free.2])

theorem State.PostedOnWire.trunkLive : s.trunkLive.PostedOnWire := by
  refine State.trunkLive_keeps h (fun _ _ => h.of_same rfl rfl rfl) fun running _ => ?_
  have live : (s.withTrunkRx .hunt).PostedOnWire := h.of_same rfl rfl rfl
  have granted : (s.withTrunkRx .hunt).grantRestarted.PostedOnWire := by
    unfold State.grantRestarted
    split_ifs with grants
    · rw [Bool.and_eq_true] at grants
      exact State.postedOnWire_of_none (by simpa using live.none_of_free running grants.1)
    · exact live
  exact granted.of_same (by simp) (by simp) (by simp)

theorem State.PostedOnWire.trunkDead : s.trunkDead.PostedOnWire := by
  have same := s.trunkDown_touches
  have down : s.trunkDown.levelUnit.inTransmission = s.levelUnit.inTransmission := by simp
  refine State.trunkDead_keeps h (fun _ => h.of_same rfl rfl rfl) (fun running _ wire => ?_) fun running _ g wire => ?_
  · exact State.postedOnWire_of_none (down.trans (h.none_of_wire running (by simp [wire])))
  · have freed : ∀ r, (s.trunkDown.wireAborted.setLevelUnit
        { s.trunkDown.wireAborted.levelUnit with inTransmission := none }).abortReturn r |>.PostedOnWire :=
      fun r => State.PostedOnWire.abortReturn (State.postedOnWire_of_none rfl) r
    cases transmitted : s.levelUnit.inTransmission with
    | none =>
      have idle : s.trunkDown.wireAborted.PostedOnWire := State.postedOnWire_of_none (down.trans transmitted)
      exact State.ownAbort_keeps idle (fun _ _ => idle.of_same rfl rfl rfl) (fun _ _ _ _ _ => idle.of_same rfl rfl rfl)
        (fun _ r _ _ _ => (postedOnWire_reads.retired _ _ idle).abortReturn r.record) fun _ r _ _ => freed r
    | some r =>
      have posted := h running (by simp [transmitted])
      rw [wire, Option.any_some] at posted
      have still : s.trunkDown.wireAborted.levelUnit.inTransmission = some r := down.trans transmitted
      obtain ⟨l, rfl⟩ : ∃ l, g = .dispatch l none := by
        cases g with
        | dispatch l ticket =>
          cases ticket with
          | none => exact ⟨l, rfl⟩
          | some ticket => cases posted
        | reply => cases posted
        | notice frame cancelled => cases posted
        | resend l ticket => cases posted
      rw [State.ownAbort_posted still]
      exact freed r

/-- A frame that is not posted has left the wire, or a frame has been granted: no posted record was in transmission. -/
theorem State.PostedOnWire.of_notPosted (running : s.Running) (wire : s.onWire.any GrantedFrame.isPosted = false)
    (transmitted : t.levelUnit.inTransmission = s.levelUnit.inTransmission) : t.PostedOnWire :=
  State.postedOnWire_of_none (transmitted.trans (h.none_of_wire running wire))

omit h in
@[simp] theorem GrantedFrame.cancelIfOff_isPosted (enables : BitVec 5) (g : GrantedFrame) :
    (g.cancelIfOff enables).isPosted = g.isPosted := by
  cases g with
  | dispatch l ticket => cases ticket <;> rfl
  | reply => rfl
  | notice frame cancelled => rfl
  | resend l ticket => rfl

theorem State.PostedOnWire.effect (running : s.Running) (d : Effect s t) : t.PostedOnWire := by
  cases d
  case nothing => exact h
  case trunkSymbols symbols => exact h.trunkArrival symbols
  case classificationEnds f inFlight => exact (h.carriedOut f).of_same (by simp) (by simp) (by simp)
  case replyGranted r rest free ready => exact State.postedOnWire_of_none (by simp [h.none_of_free running free])
  case noticeGranted free => exact State.postedOnWire_of_none (by simp [h.none_of_free running free])
  case resendGranted l r may found waits =>
    simp only [State.eventsGrantable, Bool.and_eq_true] at may
    exact State.postedOnWire_of_none (by simp [h.none_of_free running may.1.1.1])
  case postedGranted l r rest may head posted => exact fun _ _ => rfl
  case heldGranted l r rest may head held free =>
    simp only [State.eventsGrantable, Bool.and_eq_true] at may
    exact State.postedOnWire_of_none (h.none_of_free running may.1.1.1)
  case replyEnds wire => exact h.of_notPosted running (by rw [wire]; rfl) (by simp)
  case noticeEnds f cancelled wire => exact h.of_notPosted running (by rw [wire]; rfl) (by simp)
  case postedEnds l wire =>
    unfold State.postedSent
    split
    · next absent => exact State.postedOnWire_of_none absent
    · exact State.postedOnWire_of_none (by simp)
  case heldEnds l ticket wire => exact h.of_notPosted running (by rw [wire]; rfl) (by simp)
  case resendEnds l ticket wire => exact h.of_notPosted running (by rw [wire]; rfl) (by simp)
  case timerLapses l r inService => exact postedOnWire_reads.retire h l r .lapsed
  case maskSet q rest data mask head => exact h.of_same (by simp) (by simp [LevelUnit.withMask]) (by simp [State.answered])
  case flushed q rest data l head =>
    exact (postedOnWire_reads.flush h l).of_same (by simp) (by simp) (by simp [State.answered])
  case noticesSet q rest data enables head =>
    intro held transmitted
    have posted := h held transmitted
    simpa [State.answered, State.enableNotices, State.onWire, TrunkTransmitter.cancelIfOff, Option.any_map,
      Function.comp_def] using posted
  case trafficReset q rest head =>
    exact State.postedOnWire_of_none (by simp [State.answer, LevelUnit.traffic])
  case fullReset q rest head => exact State.postedOnWire_of_none rfl
  all_goals exact h.of_same (by simp) (by simp) (by simp [State.answered, State.deferred, State.produceReply])

theorem State.PostedOnWire.transition (d : Transition s t) : t.PostedOnWire := by
  cases d with
  | waits => exact h
  | resetFalls =>
    intro low
    cases low
  | resetReleased lines =>
    rw [State.released_frame]
    exact State.postedOnWire_of_none rfl
  | fieldLive p => exact h.of_same (by simp) (by simp) (by simp)
  | fieldDead p => exact h.of_same (by simp) (by simp) (by simp)
  | trunkLive => exact h.trunkLive
  | trunkDead => exact h.trunkDead
  | runs running effect => exact h.effect running effect

end

section
variable {s t : State} (h : s.PoolCounts 0)
include h

theorem State.PoolCounts.effect (d : Effect s t) : t.PoolCounts 0 := by
  cases d
  case nothing => exact h
  case trunkSymbols symbols => exact h.trunkArrival symbols
  case classificationEnds f inFlight => exact (h.carriedOut f).of_same (by simp) (by simp)
  case resendGranted l r may found waits =>
    have resending : (s.setInService l (some { r with phase := .resending, attempt := r.attempt + 1 })).PoolCounts 0 :=
      h.changed found
    exact resending.of_same (by simp) (by simp)
  case postedGranted l r rest may head posted =>
    have taken := h.headTaken head
    exact (taken.setTransmission (x := some r) (by simp)).of_same rfl rfl
  case heldGranted l r rest may head held free =>
    have counted := (poolCounts_reads 1).level _ l (Level.countDispatched _) (List.Sublist.refl _) rfl rfl (h.headTaken head)
    exact (counted.setInService (l := l) (more := 0) (x := some
      { record := r, ticket := s.newTicket, attempt := 1, phase := .dispatching }) (by simp)).of_same rfl rfl
  case postedEnds l wire =>
    have sent : s.trunkSent.PoolCounts 0 := h.of_same rfl rfl
    unfold State.postedSent
    split
    · exact sent
    · next r transmitted =>
      have freed := (sent.transmissionEnded transmitted).of_fewer (more := 0) (by omega) rfl
      exact (poolCounts_reads 0).serve ((poolCounts_reads 0).level _ r.level (Level.countDispatched _) (List.Sublist.refl _)
        rfl rfl freed) r.level
  case heldEnds l ticket wire => exact State.PoolCounts.awaitAfter (s := s.trunkSent) (h.of_same rfl rfl) l ticket _
  case resendEnds l ticket wire => exact State.PoolCounts.awaitAfter (s := s.trunkSent) (h.of_same rfl rfl) l ticket _
  case timerResends l r units found timed remain => exact h.changed found
  case timerLapses l r inService => exact (poolCounts_reads 0).retire h l r .lapsed
  case countsCleared q rest data l head =>
    have cleared : (s.setLevel l (s.levelAt l).clearCounts).PoolCounts 0 := h.setLevel le_rfl
    exact cleared.of_same (by simp) (by simp)
  case levelSet q rest l settings head legal room =>
    have set : (s.setLevel l { s.levelAt l with settings := settings }).PoolCounts 0 := h.setLevel le_rfl
    exact set.of_same (by simp) (by simp)
  case maskSet q rest data mask head =>
    have same : (s.setLevelUnit (s.levelUnit.withMask mask)).usedRecords = s.usedRecords :=
      State.usedRecords_congr (fun l => by rw [State.withMask_levelAt]) (fun l => by simp) (by simp [LevelUnit.withMask])
    have masked : (s.setLevelUnit (s.levelUnit.withMask mask)).PoolCounts 0 :=
      h.of_fewer (by omega) (by simp [LevelUnit.withMask])
    exact masked.of_same (by simp) (by simp)
  case poolRead q rest data head =>
    have read : (s.setLevelUnit { s.levelUnit with lowWater := byteOf s.freeRecords, refusals := 0 }).PoolCounts 0 := by
      have same : (s.setLevelUnit { s.levelUnit with lowWater := byteOf s.freeRecords, refusals := 0 }).usedRecords =
        s.usedRecords := State.usedRecords_congr (fun _ => rfl) (fun _ => rfl) rfl
      have mark : (byteOf s.freeRecords).toNat ≤ s.freeRecords := by
        simp only [byteOf, BitVec.toNat_ofNat]
        exact Nat.mod_le _ _
      have used := h.used
      simp only [State.freeRecords, Config.poolSize] at mark
      exact ⟨by rw [same]; exact used, by rw [same, State.setLevelUnit_levelUnit]; simp only [State.freeRecords, Config.poolSize]; omega⟩
    exact read.of_same (by simp) (by simp)
  case flushed q rest data l head => exact ((poolCounts_reads 0).flush h l).of_same (by simp) (by simp)
  case trafficReset q rest head =>
    refine State.poolCounts_of_empty (fun l => ?_) (fun l => ?_) ?_ ?_ <;>
      simp [State.answer, State.levelAt, State.inServiceAt, LevelUnit.traffic, ServiceUnit.traffic]
  case fullReset q rest head => exact State.poolCounts_initial rfl rfl
  all_goals exact h.of_same (by simp) (by simp)

theorem State.PoolCounts.transition (d : Transition s t) : t.PoolCounts 0 := by
  cases d with
  | waits => exact h
  | resetFalls => exact h.of_same rfl rfl
  | resetReleased lines =>
    rw [State.released_frame]
    exact State.poolCounts_initial rfl rfl
  | fieldLive p => exact h.of_same (by simp) (by simp)
  | fieldDead p => exact h.of_same (by simp) (by simp)
  | trunkLive => exact h.of_same (by simp) (by simp)
  | trunkDead => exact h.trunkDead
  | runs _ effect => exact h.effect effect

end

/-! ### No held record twice -/

/-- What makes two held records duplicates (R91). -/
def heldKey (r : Record) : Requester × Byte × Half × BitVec 4 := (r.origin, r.node, r.code, r.seq)

/-- The keys of the held records of a list. -/
def heldKeys (rs : List Record) : List (Requester × Byte × Half × BitVec 4) := (rs.filter (·.kind == .held)).map heldKey

theorem duplicates_iff {a b : Record} (held : a.kind = .held) : duplicates a b = true ↔ heldKey a = heldKey b := by
  simp [duplicates, heldKey, held, and_assoc]

theorem heldKeys_cons (r : Record) (rs : List Record) :
    heldKeys (r :: rs) = if r.kind = .held then heldKey r :: heldKeys rs else heldKeys rs := by
  by_cases held : r.kind = .held <;> simp [heldKeys, held]

theorem heldKeys_nodup_iff (rs : List Record) :
    (heldKeys rs).Nodup ↔ (rs.filter (·.kind == .held)).Pairwise fun a b => duplicates a b = false := by
  rw [heldKeys, List.Nodup, List.pairwise_map]
  refine List.Pairwise.iff_of_mem fun {a b} ha _ => ?_
  have held : a.kind = .held := by simpa using (List.mem_filter.mp ha).2
  rw [← Bool.not_eq_true, duplicates_iff held]

theorem heldKeys_perm {rs rs' : List Record} (perm : rs.Perm rs') : (heldKeys rs).Perm (heldKeys rs') :=
  (perm.filter _).map _

theorem heldKeys_sublist {rs rs' : List Record} (shorter : rs.Sublist rs') : (heldKeys rs).Sublist (heldKeys rs') :=
  (shorter.filter _).map _

/-- No two held records that wait are duplicates, nor is one of them a duplicate of an extra record; a record in transmission is
posted. -/
structure State.HeldOnce (extra : List Record) (s : State) : Prop where
  posted : ∀ r ∈ s.levelUnit.inTransmission, r.kind = .posted
  distinct : (heldKeys (extra ++ s.waitingRecords)).Nodup

theorem State.noHeldTwice_iff {s : State} : s.NoHeldTwice ↔ s.HeldOnce [] := by
  constructor
  · rintro ⟨posted, distinct⟩
    exact ⟨posted, (heldKeys_nodup_iff _).mpr distinct⟩
  · rintro ⟨posted, distinct⟩
    exact ⟨posted, (heldKeys_nodup_iff _).mp distinct⟩

section
variable {s t : State} {extra : List Record} (h : s.HeldOnce extra)
include h

theorem State.HeldOnce.of_less (less : t.WaitsLess s) (transmitted : ∀ r ∈ t.levelUnit.inTransmission, r.kind = .posted) :
    t.HeldOnce extra :=
  ⟨transmitted, h.distinct.sublist (heldKeys_sublist ((List.Sublist.refl extra).append less.waitingRecords))⟩

theorem State.HeldOnce.of_same (levelUnit : t.levelUnit = s.levelUnit) (inService : t.service.inService = s.service.inService) :
    t.HeldOnce extra :=
  h.of_less (State.waitsLess_of_same (fun l => by rw [State.levelAt, levelUnit, State.levelAt])
    (fun l => by rw [State.inServiceAt, inService, State.inServiceAt])) (levelUnit ▸ h.posted)

/-- A record that comes to wait, or one that leaves and is kept in sight. -/
theorem State.HeldOnce.of_perm {more : List Record} (perm : (more ++ t.waitingRecords).Perm (extra ++ s.waitingRecords))
    (transmitted : ∀ r ∈ t.levelUnit.inTransmission, r.kind = .posted) : t.HeldOnce more :=
  ⟨transmitted, (heldKeys_perm perm).nodup_iff.mpr h.distinct⟩

end

theorem heldOnce_reads (extra : List Record) : QueuesRead (State.HeldOnce extra) where
  requestRelease _ _ _ h := h.of_same (by simp) (by simp)
  setNotices _ _ h := h.of_same (by simp) (by simp)
  level _ _ _ queue _ _ h := h.of_less (State.waitsLess_shorter queue) h.posted
  refusals _ _ h := h.of_less (State.waitsLess_of_same (fun _ => rfl) fun _ => rfl) h.posted
  retired _ l h := h.of_less (State.waitsLess_retired l) h.posted
  served _ _ h := h.of_same (by simp) (by simp)

section
variable {s t : State}

/-- A record with a new key is appended. -/
theorem State.HeldOnce.enqueue (h : s.HeldOnce []) {q : Record} (new : s.isDuplicate q = false) :
    (s.enqueue q).lowerMark.HeldOnce [] := by
  have fresh : (heldKeys (q :: s.waitingRecords)).Nodup := by
    rw [heldKeys_cons]
    split_ifs with held
    · refine List.nodup_cons.mpr ⟨fun mem => ?_, h.distinct⟩
      obtain ⟨r, waits, key⟩ := List.mem_map.mp mem
      obtain ⟨waits, isHeld⟩ := List.mem_filter.mp waits
      have isHeld : r.kind = .held := by simpa using isHeld
      rw [State.isDuplicate_eq, held] at new
      simp only [beq_self_eq_true, Bool.true_and, List.any_eq_false] at new
      exact new r waits ((duplicates_iff isHeld).mpr key)
    · exact h.distinct
  have queued : (s.enqueue q).HeldOnce [] := ⟨h.posted, (heldKeys_perm (s.enqueue_waitingRecords q)).nodup_iff.mpr fresh⟩
  rw [State.lowerMark_frame]
  exact queued.of_less (State.waitsLess_of_same (fun _ => rfl) fun _ => rfl) queued.posted

theorem heldKeys_waitingRecords : heldKeys s.waitingRecords = (List.finRange 16).flatMap fun l => heldKeys (s.waitingAt l) := by
  rw [State.waitingRecords_eq, heldKeys, List.filter_flatMap, List.map_flatMap]
  rfl

theorem heldKeys_append (rs rs' : List Record) : heldKeys (rs ++ rs') = heldKeys rs ++ heldKeys rs' := by
  simp [heldKeys]

/-- A merge changes a posted record, so the held ones are as they were. -/
theorem heldKeys_mergeFirst {q : Record} {rs queue : List Record} (merge : mergeFirst q rs = some queue) :
    heldKeys queue = heldKeys rs := by
  obtain ⟨before, r, after, rfl, qualifies, rfl⟩ := mergeFirst_eq_some merge
  have posted := posted_of_coalescesWith qualifies
  have postedToo : (mergedInto r q).kind = .posted := posted
  rw [heldKeys_append, heldKeys_append, heldKeys_cons, heldKeys_cons, posted, postedToo]
  rfl

theorem State.HeldOnce.merged (h : s.HeldOnce []) {q : Record} {queue : List Record}
    (merge : mergeFirst q (s.levelAt q.level).queue = some queue) :
    (s.setLevel q.level { s.levelAt q.level with queue := queue }).HeldOnce [] := by
  refine ⟨h.posted, ?_⟩
  have same : ∀ l, heldKeys ((s.setLevel q.level { s.levelAt q.level with queue := queue }).waitingAt l) =
      heldKeys (s.waitingAt l) := by
    intro l
    rw [State.waitingAt_setLevel]
    split_ifs with at_l
    · subst at_l
      rw [State.waitingAt, heldKeys_append, heldKeys_append, heldKeys_mergeFirst merge]
    · rfl
  have distinct := h.distinct
  rw [List.nil_append, heldKeys_waitingRecords] at distinct ⊢
  simpa only [same] using distinct

theorem State.HeldOnce.admission (h : s.HeldOnce []) (q : Record) : (s.admission q).1.HeldOnce [] :=
  (heldOnce_reads []).admission h (fun _ _ merge => h.merged merge) fun _ hu new _ _ => hu.enqueue new

/-- A record put before a level's queue. -/
theorem State.putBefore_waitingRecords (r : Record) (l : LevelId) :
    (s.setLevel l { s.levelAt l with queue := r :: (s.levelAt l).queue }).waitingRecords.Perm (r :: s.waitingRecords) := by
  refine State.waitingRecords_gains (l := l) (fun m other => ?_) ?_
  · rw [State.waitingAt_setLevel, if_neg other.symm]
  · rw [State.waitingAt_setLevel, if_pos rfl, State.waitingAt, List.cons_append]

theorem State.HeldOnce.abortReturn {r : Record} (h : s.HeldOnce [r]) : (s.abortReturn r).HeldOnce [] := by
  refine (heldOnce_reads []).abortReturn fun queue shorter _ => ?_
  have put : (s.setLevel r.level { s.levelAt r.level with queue := r :: (s.levelAt r.level).queue }).HeldOnce [] :=
    h.of_perm (s.putBefore_waitingRecords r r.level) h.posted
  refine put.of_less (fun m => ?_) h.posted
  rw [State.waitingAt_setLevel, State.waitingAt_setLevel, Level.raiseHighWater_queue]
  split_ifs with same
  · exact shorter.append_right _
  · exact List.Sublist.refl _

/-- A record that leaves service is kept in sight. -/
theorem State.HeldOnce.serviceLeft (h : s.HeldOnce []) {l : LevelId} {r : ServiceRecord} (found : s.inServiceAt l = some r) :
    (s.setInService l none).HeldOnce [r.record] := by
  have gains : s.waitingRecords.Perm (r.record :: (s.setInService l none).waitingRecords) := by
    refine State.waitingRecords_gains (l := l) (fun m other => ?_) ?_
    · rw [State.waitingAt_setInService, if_neg other.symm]
    · rw [State.waitingAt_setInService, if_pos rfl, State.waitingAt, found]
      simp
  exact h.of_perm gains.symm h.posted

/-- A level's head record that is taken is kept in sight. -/
theorem State.HeldOnce.headTaken (h : s.HeldOnce []) {l : LevelId} {r : Record} {rest : List Record}
    (head : (s.levelAt l).queue = r :: rest) : (s.setLevel l { s.levelAt l with queue := rest }).HeldOnce [r] := by
  have gains : s.waitingRecords.Perm (r :: (s.setLevel l { s.levelAt l with queue := rest }).waitingRecords) := by
    refine State.waitingRecords_gains (l := l) (fun m other => ?_) ?_
    · rw [State.waitingAt_setLevel, if_neg other.symm]
    · rw [State.waitingAt_setLevel, if_pos rfl, State.waitingAt, head, List.cons_append]
  exact h.of_perm gains.symm h.posted

/-- A record in sight enters service at a free level. -/
theorem State.HeldOnce.entersService {l : LevelId} {x : ServiceRecord} (h : s.HeldOnce [x.record])
    (free : s.inServiceAt l = none) : (s.setInService l (some x)).HeldOnce [] := by
  have gains : (s.setInService l (some x)).waitingRecords.Perm (x.record :: s.waitingRecords) := by
    refine State.waitingRecords_gains (l := l) (fun m other => ?_) ?_
    · rw [State.waitingAt_setInService, if_neg other.symm]
    · rw [State.waitingAt_setInService, if_pos rfl, State.waitingAt, free]
      simp
  exact h.of_perm gains h.posted

/-- A record in service whose sub-state or attempt alone changes. -/
theorem State.HeldOnce.sameRecord (h : s.HeldOnce []) {l : LevelId} {r x : ServiceRecord} (found : s.inServiceAt l = some r)
    (same : x.record = r.record) : (s.setInService l (some x)).HeldOnce [] := by
  refine h.of_less (fun m => ?_) h.posted
  rw [State.waitingAt_setInService]
  split_ifs with at_l
  · subst at_l
    rw [State.waitingAt, found, Option.map_some, Option.map_some, same]
  · exact List.Sublist.refl _

theorem State.HeldOnce.trunkArrival (h : s.HeldOnce []) (symbols : List Symbol) : (s.trunkArrival symbols).HeldOnce [] :=
  State.trunkArrival_keeps symbols (fun _ _ => h.of_same rfl rfl) fun _ v _ hu =>
    State.trunkVerdict_keeps v hu (fun c => hu.of_same (by simp) (by simp))
      (fun l r o _ => (heldOnce_reads []).retire hu l r o) (hu.of_same (by simp) (by simp)) (fun _ => hu.of_same rfl rfl)
      fun tag op operands => hu.of_same (by simp) (by simp)

theorem State.HeldOnce.carriedOut (h : s.HeldOnce []) (f : FlightEvent) : (s.carriedOut f).HeldOnce [] := by
  have counted : (s.countHit f).HeldOnce [] := h.of_same rfl rfl
  exact State.carryOut_keeps (fun _ _ _ hu => hu.of_same (by simp) (by simp)) counted f (fun q _ => counted.admission q) _

theorem State.HeldOnce.awaitAfter (h : s.HeldOnce []) (l : LevelId) (ticket : Byte) (inPhase : SubState → Bool) :
    (s.awaitAfter l ticket inPhase).HeldOnce [] := by
  unfold State.awaitAfter
  split
  · next r reported => exact h.sameRecord (State.reported_inService reported).1 rfl
  · exact h

theorem State.HeldOnce.setTransmission {extra : List Record} (h : s.HeldOnce extra) {x : Option Record}
    (posted : ∀ r ∈ x, r.kind = .posted) :
    (s.setLevelUnit { s.levelUnit with inTransmission := x }).HeldOnce extra :=
  h.of_less (State.waitsLess_of_same (fun _ => rfl) fun _ => rfl) posted

theorem State.HeldOnce.trunkDead (h : s.HeldOnce []) : s.trunkDead.HeldOnce [] := by
  have same := s.trunkDown_touches
  have down : s.trunkDown.HeldOnce [] :=
    h.of_same (same.levelUnit (by decide)) (congrArg ServiceUnit.inService (same.service (by decide)))
  refine State.trunkDead_keeps h (fun _ => h.of_same rfl rfl) (fun _ _ _ => down) fun _ _ g _ => ?_
  have aborted : s.trunkDown.wireAborted.HeldOnce [] := down.of_same rfl rfl
  refine State.ownAbort_keeps aborted (fun _ _ => aborted.of_same rfl rfl) (fun _ _ _ found _ => aborted.sameRecord found rfl)
    (fun _ _ _ found _ => (aborted.serviceLeft found).abortReturn) fun _ r _ transmitted => ?_
  have ended := aborted.setTransmission (x := none) (by simp)
  have inSight : (s.trunkDown.wireAborted.setLevelUnit
      { s.trunkDown.wireAborted.levelUnit with inTransmission := none }).HeldOnce [r] :=
    ⟨ended.posted, by
      rw [List.singleton_append, heldKeys_cons, if_neg (by simp [aborted.posted r transmitted])]
      exact ended.distinct⟩
  exact inSight.abortReturn

theorem State.heldOnce_of_empty (queues : ∀ l, (t.levelAt l).queue = []) (inService : ∀ l, t.inServiceAt l = none)
    (transmitted : t.levelUnit.inTransmission = none) : t.HeldOnce [] := by
  have none : t.waitingRecords = [] := by
    rw [State.waitingRecords_eq, List.flatMap_eq_nil_iff]
    intro l _
    rw [State.waitingAt, queues, inService]
    rfl
  exact ⟨by simp [transmitted], by rw [none]; exact List.nodup_nil⟩

theorem State.heldOnce_initial (levelUnit : t.levelUnit = LevelUnit.initial) (service : t.service = ServiceUnit.initial) :
    t.HeldOnce [] := by
  refine State.heldOnce_of_empty (fun l => ?_) (fun l => ?_) ?_
  · simp [State.levelAt, levelUnit, LevelUnit.initial, Level.initial]
  · simp [State.inServiceAt, service, ServiceUnit.initial]
  · simp [levelUnit, LevelUnit.initial]

theorem State.HeldOnce.effect (h : s.HeldOnce []) (d : Effect s t) : t.HeldOnce [] := by
  cases d
  case nothing => exact h
  case trunkSymbols symbols => exact h.trunkArrival symbols
  case classificationEnds f inFlight => exact (h.carriedOut f).of_same (by simp) (by simp)
  case resendGranted l r may found waits =>
    have resending : (s.setInService l (some { r with phase := .resending, attempt := r.attempt + 1 })).HeldOnce [] :=
      h.sameRecord found rfl
    exact resending.of_same (by simp) (by simp)
  case postedGranted l r rest may head posted =>
    have taken := (heldOnce_reads []).level s l { s.levelAt l with queue := rest } (head ▸ List.sublist_cons_self r rest) rfl rfl h
    exact (taken.setTransmission (x := some r) (by simpa using posted)).of_same rfl rfl
  case heldGranted l r rest may head held free =>
    have counted := (heldOnce_reads [r]).level _ l (Level.countDispatched _) (List.Sublist.refl _) rfl rfl (h.headTaken head)
    exact (State.HeldOnce.entersService (l := l)
      (x := { record := r, ticket := s.newTicket, attempt := 1, phase := .dispatching }) counted free).of_same rfl rfl
  case postedEnds l wire =>
    have sent : s.trunkSent.HeldOnce [] := h.of_same rfl rfl
    unfold State.postedSent
    split
    · exact sent
    · next r transmitted =>
      have freed := sent.setTransmission (x := none) (by simp)
      exact (heldOnce_reads []).serve ((heldOnce_reads []).level _ r.level (Level.countDispatched _) (List.Sublist.refl _)
        rfl rfl freed) r.level
  case heldEnds l ticket wire => exact State.HeldOnce.awaitAfter (s := s.trunkSent) (h.of_same rfl rfl) l ticket _
  case resendEnds l ticket wire => exact State.HeldOnce.awaitAfter (s := s.trunkSent) (h.of_same rfl rfl) l ticket _
  case timerResends l r units found timed remain => exact h.sameRecord found rfl
  case timerLapses l r inService => exact (heldOnce_reads []).retire h l r .lapsed
  case countsCleared q rest data l head =>
    have less : (s.setLevel l (s.levelAt l).clearCounts).WaitsLess s := State.waitsLess_shorter (List.Sublist.refl _)
    have cleared : (s.setLevel l (s.levelAt l).clearCounts).HeldOnce [] := h.of_less less h.posted
    exact cleared.of_same (by simp) (by simp)
  case levelSet q rest l settings head legal room =>
    have less : (s.setLevel l { s.levelAt l with settings := settings }).WaitsLess s :=
      State.waitsLess_shorter (List.Sublist.refl _)
    have set : (s.setLevel l { s.levelAt l with settings := settings }).HeldOnce [] := h.of_less less h.posted
    exact set.of_same (by simp) (by simp)
  case maskSet q rest data mask head =>
    have masked : (s.setLevelUnit (s.levelUnit.withMask mask)).HeldOnce [] :=
      h.of_less (State.waitsLess_of_same (fun l => by rw [State.withMask_levelAt]) fun l => by simp)
        (by simpa [LevelUnit.withMask] using h.posted)
    exact masked.of_same (by simp) (by simp)
  case poolRead q rest data head =>
    have read : (s.setLevelUnit { s.levelUnit with lowWater := byteOf s.freeRecords, refusals := 0 }).HeldOnce [] :=
      h.of_less (State.waitsLess_of_same (fun _ => rfl) fun _ => rfl) h.posted
    exact read.of_same (by simp) (by simp)
  case flushed q rest data l head => exact ((heldOnce_reads []).flush h l).of_same (by simp) (by simp)
  case trafficReset q rest head =>
    refine State.heldOnce_of_empty (fun l => ?_) (fun l => ?_) ?_ <;>
      simp [State.answer, State.levelAt, State.inServiceAt, LevelUnit.traffic, ServiceUnit.traffic]
  case fullReset q rest head => exact State.heldOnce_initial rfl rfl
  all_goals exact h.of_same (by simp) (by simp)

theorem State.HeldOnce.transition (h : s.HeldOnce []) (d : Transition s t) : t.HeldOnce [] := by
  cases d with
  | waits => exact h
  | resetFalls => exact h.of_same rfl rfl
  | resetReleased lines =>
    rw [State.released_frame]
    exact State.heldOnce_initial rfl rfl
  | fieldLive p => exact h.of_same (by simp) (by simp)
  | fieldDead p => exact h.of_same (by simp) (by simp)
  | trunkLive => exact h.of_same (by simp) (by simp)
  | trunkDead => exact h.trunkDead
  | runs _ effect => exact h.effect effect

end

/-- Settles O58: the counts of the pool move with each record, and a held record is admitted only where it has no duplicate. -/
theorem everyStepKeepsThePool : Obligations.EveryStepKeepsThePool := by
  constructor
  · refine step_keeps (fun _ _ h => h) fun s t h d => ?_
    rw [State.poolKept_iff] at h ⊢
    obtain ⟨counts, wire⟩ := h
    exact ⟨counts.transition d, wire.transition d⟩
  · refine step_keeps (fun _ _ h => h) fun s t h d => ?_
    rw [State.noHeldTwice_iff] at h ⊢
    exact h.transition d

end Sys2Proof.Machine
end

section
/-!
Tickets (R109): the next free number, which sixteen records in service cannot exhaust, and the in-service table (R103, R113, R114)
step by step.
-/

namespace Sys2Proof.Machine

/-! ### The next free number -/

theorem nextTicket_ne_zero (t : Byte) : nextTicket t ≠ 0 := by
  unfold nextTicket
  split_ifs with last
  · decide
  · bv_omega

/-- The numbers from a ticket on go round 1 to 255. -/
theorem nextTicket_iterate {t : Byte} (nonzero : t ≠ 0) (m : Nat) :
    (nextTicket^[m] t).toNat = (t.toNat - 1 + m) % 255 + 1 := by
  have positive : 1 ≤ t.toNat := Nat.one_le_iff_ne_zero.mpr fun zero => nonzero (BitVec.eq_of_toNat_eq zero)
  have bound : t.toNat ≤ 255 := Nat.le_of_lt_succ t.isLt
  induction m with
  | zero =>
    rw [Function.iterate_zero, id]
    omega
  | succ m ih =>
    rw [Function.iterate_succ_apply']
    generalize nextTicket^[m] t = x at ih
    unfold nextTicket
    split_ifs with last
    · subst last
      have : (255 : Byte).toNat = 255 := rfl
      have : (1 : Byte).toNat = 1 := rfl
      omega
    · have small : x.toNat ≠ 255 := fun same => last (BitVec.eq_of_toNat_eq same)
      have next : (x + 1).toNat = x.toNat + 1 := by bv_omega
      omega

/-- Fewer than 255 numbers in a row are pairwise distinct. -/
theorem nextTicket_iterate_injective {t : Byte} (nonzero : t ≠ 0) {m n : Nat} (hm : m < 255) (hn : n < 255)
    (same : nextTicket^[m] t = nextTicket^[n] t) : m = n := by
  have values := congrArg BitVec.toNat same
  rw [nextTicket_iterate nonzero, nextTicket_iterate nonzero] at values
  omega

/-- The search ends at the first number that is not in use, or at its last try. -/
theorem findTicket_eq (inUse : Byte → Bool) : ∀ (tries : Nat) (t : Byte), ∃ n, n ≤ tries ∧
    findTicket inUse tries t = nextTicket^[n] t ∧ (∀ m, m < n → inUse (nextTicket^[m] t) = true) ∧
    (n < tries → inUse (nextTicket^[n] t) = false)
  | 0, t => ⟨0, le_rfl, rfl, by simp, by simp⟩
  | tries + 1, t => by
    rw [findTicket]
    split_ifs with used
    · obtain ⟨n, le, found, before, free⟩ := findTicket_eq inUse tries (nextTicket t)
      refine ⟨n + 1, Nat.succ_le_succ le, found, fun m lt => ?_, fun lt => free (Nat.lt_of_succ_lt_succ lt)⟩
      cases m with
      | zero => exact used
      | succ m => exact before m (Nat.lt_of_succ_lt_succ lt)
    · exact ⟨0, Nat.zero_le _, rfl, by simp, fun _ => by simpa using used⟩

section
variable (s : State)

theorem State.ticketInUse_iff (t : Byte) : s.ticketInUse t = true ↔ ∃ l r, s.inServiceAt l = some r ∧ r.ticket = t := by
  simp only [State.ticketInUse, State.holderOf, List.find?_isSome, List.mem_finRange, true_and, Option.any_eq_true,
    beq_iff_eq]

/-- Seventeen numbers in a row are not all in use: there are sixteen levels. -/
theorem State.not_all_inUse {t : Byte} (nonzero : t ≠ 0) : ∃ m, m ≤ 16 ∧ s.ticketInUse (nextTicket^[m] t) = false := by
  by_contra allUsed
  have used : ∀ m : Fin 17, ∃ l : LevelId, ∃ r, s.inServiceAt l = some r ∧ r.ticket = nextTicket^[m.val] t := by
    intro m
    rw [← State.ticketInUse_iff, ← Bool.not_eq_false]
    exact fun free => allUsed ⟨m, Nat.le_of_lt_succ m.isLt, free⟩
  choose holder record found ticket using used
  obtain ⟨m, n, distinct, same⟩ := Fintype.exists_ne_map_eq_of_card_lt holder (by simp)
  have records : record m = record n := Option.some.inj ((found m).symm.trans (same ▸ found n))
  have tickets : nextTicket^[m.val] t = nextTicket^[n.val] t := by rw [← ticket m, ← ticket n, records]
  exact distinct (Fin.ext (nextTicket_iterate_injective nonzero (by omega) (by omega) tickets))

/-- The new ticket is the first number after the counter that is not in use. -/
theorem State.newTicket_eq : ∃ n, n ≤ 16 ∧ s.newTicket = nextTicket^[n + 1] s.service.ticketCounter ∧
    s.ticketInUse s.newTicket = false ∧
    ∀ m, m < n → s.ticketInUse (nextTicket^[m + 1] s.service.ticketCounter) = true := by
  have nonzero := nextTicket_ne_zero s.service.ticketCounter
  obtain ⟨n, le, found, before, free⟩ := findTicket_eq s.ticketInUse 16 (nextTicket s.service.ticketCounter)
  refine ⟨n, le, found, ?_, before⟩
  rw [State.newTicket, found]
  rcases Nat.lt_or_eq_of_le le with lt | rfl
  · exact free lt
  · obtain ⟨m, leLast, unused⟩ := s.not_all_inUse nonzero
    rcases Nat.lt_or_eq_of_le leLast with lt | rfl
    · rw [before m lt] at unused
      cases unused
    · exact unused

theorem State.newTicket_ne_zero : s.newTicket ≠ 0 := by
  obtain ⟨n, -, found, -⟩ := s.newTicket_eq
  rw [found, Function.iterate_succ_apply']
  exact nextTicket_ne_zero _

end

theorem State.newTicket_unused (s : State) {l : LevelId} {r : ServiceRecord} (found : s.inServiceAt l = some r) :
    r.ticket ≠ s.newTicket := by
  obtain ⟨n, -, -, free, -⟩ := s.newTicket_eq
  intro same
  rw [(s.ticketInUse_iff _).mpr ⟨l, r, found, same⟩] at free
  cases free

/-- Settles O52: of seventeen numbers in a row one at least is free. -/
theorem newTicketIsTheNextFreeNumber : Obligations.NewTicketIsTheNextFreeNumber := by
  unfold Obligations.NewTicketIsTheNextFreeNumber
  rintro s inUse rfl
  obtain ⟨n, le, found, free, before⟩ := s.newTicket_eq
  refine ⟨s.newTicket_ne_zero, ?_, n, le, found, fun m lt => (s.ticketInUse_iff _).mp (before m lt)⟩
  intro used
  rw [(s.ticketInUse_iff _).mpr used] at free
  cases free

/-! ### The in-service table against a wire -/

/-- A record in service, against the frame that is on the wire: it is in transmission only as that frame. -/
structure ServiceRecord.KeptOn (held : Bool) (wire : Option GrantedFrame) (l : LevelId) (r : ServiceRecord) : Prop where
  ticket : r.ticket ≠ 0
  attempt : r.phase.attemptOk r.attempt.toNat = true
  dispatching : held = false → r.phase = .dispatching → wire = some (.dispatch l (some r.ticket))
  resending : held = false → r.phase = .resending → wire = some (.resend l r.ticket)

/-- The in-service table is as its chapter says, against the frame that is on the wire; no level allows more than 8
transmissions. -/
structure State.ServiceOn (wire : Option GrantedFrame) (s : State) : Prop where
  distinct : s.TicketsDistinct
  kept : ∀ l, ∀ r ∈ s.inServiceAt l, r.KeptOn s.resetHeld wire l
  retries : ∀ l, (s.levelAt l).settings.retries.toNat ≤ 7

theorem State.serviceKept_iff {s : State} : s.ServiceKept ↔ s.ServiceOn s.onWire := by
  constructor
  · rintro ⟨distinct, kept, retries⟩
    exact ⟨distinct, fun l r found => ⟨(kept l r found).1, (kept l r found).2.1, (kept l r found).2.2.1, (kept l r found).2.2.2⟩,
      retries⟩
  · rintro ⟨distinct, kept, retries⟩
    exact ⟨distinct, fun l r found => ⟨(kept l r found).1, (kept l r found).2, (kept l r found).3, (kept l r found).4⟩, retries⟩

/-- No record in service is in transmission. -/
def State.Silent (s : State) : Prop := ∀ l, ∀ r ∈ s.inServiceAt l, r.phase ≠ .dispatching ∧ r.phase ≠ .resending

section
variable {s t : State} {wire : Option GrantedFrame} (h : s.ServiceOn wire)
include h

theorem State.ServiceOn.of_same (inService : ∀ l, t.inServiceAt l = s.inServiceAt l)
    (settings : ∀ l, (t.levelAt l).settings = (s.levelAt l).settings) (held : t.resetHeld = s.resetHeld) : t.ServiceOn wire := by
  obtain ⟨distinct, kept, retries⟩ := h
  refine ⟨fun l m => ?_, fun l => ?_, fun l => ?_⟩
  · rw [inService l, inService m]
    exact distinct l m
  · rw [inService l, held]
    exact kept l
  · rw [settings l]
    exact retries l

theorem State.ServiceOn.of_units (levelUnit : t.levelUnit = s.levelUnit) (inService : t.service.inService = s.service.inService)
    (held : t.resetHeld = s.resetHeld) : t.ServiceOn wire :=
  h.of_same (fun l => by rw [State.inServiceAt, inService, State.inServiceAt])
    (fun l => by rw [State.levelAt, levelUnit, State.levelAt]) held

/-- While no record is in transmission, the wire does not matter. -/
theorem State.ServiceOn.rewire (silent : s.Silent) (other : Option GrantedFrame) : s.ServiceOn other := by
  obtain ⟨distinct, kept, retries⟩ := h
  exact ⟨distinct, fun l r found => ⟨(kept l r found).ticket, (kept l r found).attempt,
    fun _ phase => absurd phase (silent l r found).1, fun _ phase => absurd phase (silent l r found).2⟩, retries⟩

/-- A frame that is not that of a record in service leaves every such record silent. -/
theorem State.ServiceOn.silent (running : s.Running)
    (other : ∀ l ticket, wire ≠ some (.dispatch l (some ticket)) ∧ wire ≠ some (.resend l ticket)) : s.Silent :=
  fun l r found => ⟨fun phase => (other l r.ticket).1 ((h.kept l r found).dispatching running phase),
    fun phase => (other l r.ticket).2 ((h.kept l r found).resending running phase)⟩

/-- A place in service is filled or emptied: the ticket is its own, and the record is kept; the other places are kept against the
wire that then is. -/
theorem State.ServiceOn.setInService {l : LevelId} {x : Option ServiceRecord} {other : Option GrantedFrame}
    (own : ∀ r ∈ x, ∀ m, m ≠ l → ∀ q ∈ s.inServiceAt m, r.ticket ≠ q.ticket) (kept : ∀ r ∈ x, r.KeptOn s.resetHeld other l)
    (others : ∀ m, m ≠ l → ∀ r ∈ s.inServiceAt m, r.KeptOn s.resetHeld other m) : (s.setInService l x).ServiceOn other := by
  refine ⟨fun a b r atA q atB same => ?_, fun m r found => ?_, h.retries⟩
  · rw [State.setInService_inServiceAt] at atA atB
    split_ifs at atA atB with la lb lb
    · rw [← la, ← lb]
    · exact absurd same (own r atA b (Ne.symm lb) q atB)
    · exact absurd same.symm (own q atB a (Ne.symm la) r atA)
    · exact h.distinct a b r atA q atB same
  · rw [State.setInService_inServiceAt] at found
    split_ifs at found with same
    · subst same
      exact kept r found
    · exact others m (Ne.symm same) r found

/-- A record that keeps its ticket keeps it to itself. -/
theorem State.ServiceOn.own_of_same {l : LevelId} {r x : ServiceRecord} (found : s.inServiceAt l = some r)
    (same : x.ticket = r.ticket) : ∀ m, m ≠ l → ∀ q ∈ s.inServiceAt m, x.ticket ≠ q.ticket :=
  fun m other q atM equal => other (h.distinct l m r found q atM (same.symm.trans equal)).symm

/-- While another level's frame is on the wire, or none of a record in service, a record is kept against any wire. -/
theorem State.ServiceOn.others_kept (running : s.Running) {l : LevelId} (only : ∀ m, m ≠ l → ∀ ticket,
      wire ≠ some (.dispatch m (some ticket)) ∧ wire ≠ some (.resend m ticket)) (other : Option GrantedFrame) :
    ∀ m, m ≠ l → ∀ r ∈ s.inServiceAt m, r.KeptOn s.resetHeld other m := by
  intro m ne r found
  obtain ⟨ticket, attempt, dispatching, resending⟩ := h.kept m r found
  exact ⟨ticket, attempt, fun _ phase => absurd (dispatching running phase) (only m ne r.ticket).1,
    fun _ phase => absurd (resending running phase) (only m ne r.ticket).2⟩

end

theorem serviceOn_reads (wire : Option GrantedFrame) : QueuesRead (State.ServiceOn wire) where
  requestRelease _ _ _ h := h.of_units (by simp) (by simp) (by simp)
  setNotices _ _ h := h.of_units (by simp) (by simp) (by simp)
  level s l x _ settings _ h := by
    refine h.of_same (fun m => by simp) (fun m => ?_) rfl
    rw [State.setLevel_levelAt]
    split_ifs with same
    · exact same ▸ settings
    · rfl
  refusals _ _ h := h.of_same (fun _ => rfl) (fun _ => rfl) rfl
  retired _ _ h := h.setInService (by simp) (by simp) fun m _ r found => h.kept m r found
  served _ _ h := h.of_units (by simp) (by simp) (by simp)

section
variable {s t : State} {wire : Option GrantedFrame}

theorem State.ServiceOn.setLevel (h : s.ServiceOn wire) {l : LevelId} {x : Level}
    (settings : x.settings = (s.levelAt l).settings) : (s.setLevel l x).ServiceOn wire := by
  refine h.of_same (fun m => by simp) (fun m => ?_) rfl
  rw [State.setLevel_levelAt]
  split_ifs with same
  · exact same ▸ settings
  · rfl

theorem Level.raiseHighWater_settings (level : Level) : level.raiseHighWater.settings = level.settings := by
  rw [Level.raiseHighWater_eq]

theorem State.ServiceOn.admission (h : s.ServiceOn wire) (q : Record) : (s.admission q).1.ServiceOn wire := by
  refine (serviceOn_reads wire).admission h (fun _ _ _ => h.setLevel rfl) fun u hu _ _ _ => ?_
  have queued : (u.enqueue q).ServiceOn wire := hu.setLevel (Level.raiseHighWater_settings _)
  rw [State.lowerMark_frame]
  exact queued.of_same (fun _ => rfl) (fun _ => rfl) rfl

theorem State.ServiceOn.abortReturn (h : s.ServiceOn wire) (r : Record) : (s.abortReturn r).ServiceOn wire :=
  (serviceOn_reads wire).abortReturn fun _ _ _ => h.setLevel (Level.raiseHighWater_settings _)

theorem State.ServiceOn.carriedOut (h : s.ServiceOn wire) (f : FlightEvent) : (s.carriedOut f).ServiceOn wire := by
  have counted : (s.countHit f).ServiceOn wire := h.of_units rfl rfl rfl
  exact State.carryOut_keeps (fun _ _ _ hu => hu.of_units (by simp) (by simp) (by simp)) counted f
    (fun q _ => counted.admission q) _

end

/-! ### A transmission of a record in service ends -/

/-- The frame is the transmission of the record with this ticket in service at this level, in this sub-state. -/
def GrantedFrame.Carries (g : GrantedFrame) (l : LevelId) (ticket : Byte) (phase : SubState) : Prop :=
  (phase = .dispatching ∧ g = .dispatch l (some ticket)) ∨ (phase = .resending ∧ g = .resend l ticket)

section
variable {s : State} {g : GrantedFrame} {l : LevelId} {ticket : Byte} {phase : SubState}

/-- A frame carries a record of one level only. -/
theorem GrantedFrame.Carries.only (carries : g.Carries l ticket phase) : ∀ m, m ≠ l → ∀ other,
    some g ≠ some (.dispatch m (some other)) ∧ some g ≠ some (.resend m other) := by
  intro m ne other
  rcases carries with ⟨-, rfl⟩ | ⟨-, rfl⟩
  · exact ⟨fun same => ne (by cases same; rfl), fun same => (by cases same)⟩
  · exact ⟨fun same => (by cases same), fun same => ne (by cases same; rfl)⟩

variable (h : s.ServiceOn (some g)) (running : s.Running) (carries : g.Carries l ticket phase)
include h running carries

/-- The record that the frame carries leaves transmission, or leaves service. -/
theorem State.ServiceOn.carriedEnds {r : ServiceRecord} (found : s.inServiceAt l = some r) {x : Option ServiceRecord}
    (kept : ∀ y ∈ x, y.ticket = r.ticket ∧ y.KeptOn s.resetHeld none l) : (s.setInService l x).ServiceOn none := by
  refine h.setInService (fun y is m ne q atM => ?_) (fun y is => (kept y is).2) (h.others_kept running carries.only none)
  exact h.own_of_same found (kept y is).1 m ne q atM

/-- The record that the frame carried is no longer there, so no record is in transmission. -/
theorem State.ServiceOn.carriedAbsent (absent : s.reported l ticket (· == phase) = none) : s.ServiceOn none := by
  have gone : ∀ r, s.inServiceAt l = some r → r.phase = phase → r.ticket = ticket → False := by
    rintro r found isPhase rfl
    rw [State.reported_of_inService found isPhase] at absent
    cases absent
  refine h.rewire (fun m r found => ⟨fun isPhase => ?_, fun isPhase => ?_⟩) none
  · have wire := (h.kept m r found).dispatching running isPhase
    rcases carries with ⟨rfl, rfl⟩ | ⟨rfl, rfl⟩
    · cases wire
      exact gone r found isPhase rfl
    · cases wire
  · have wire := (h.kept m r found).resending running isPhase
    rcases carries with ⟨rfl, rfl⟩ | ⟨rfl, rfl⟩
    · cases wire
    · cases wire
      exact gone r found isPhase rfl

end

section
variable {s t : State}

theorem SubState.attemptOk_awaiting {phase : SubState} {attempt : Nat} {timer : Option Byte}
    (sent : phase = .dispatching ∨ phase = .resending) (ok : phase.attemptOk attempt = true) :
    (SubState.awaiting timer).attemptOk attempt = true := by
  rcases sent with rfl | rfl <;> simp only [SubState.attemptOk, beq_iff_eq, decide_eq_true_eq] at ok ⊢ <;> omega

/-- A transmission that has ended leaves its record waiting with its timer (R110, R115). -/
theorem State.ServiceOn.awaitAfter {g : GrantedFrame} {l : LevelId} {ticket : Byte} {phase : SubState} (h : s.ServiceOn (some g))
    (running : s.Running) (carries : g.Carries l ticket phase) : (s.awaitAfter l ticket (· == phase)).ServiceOn none := by
  unfold State.awaitAfter
  split
  · next r reported =>
    obtain ⟨found, -, isPhase⟩ := State.reported_inService reported
    obtain rfl : r.phase = phase := by simpa using isPhase
    have sent : r.phase = .dispatching ∨ r.phase = .resending := carries.imp And.left And.left
    refine h.carriedEnds running carries found fun y is => ?_
    cases is
    obtain ⟨nonzero, attempt, -, -⟩ := h.kept l r found
    exact ⟨rfl, nonzero, SubState.attemptOk_awaiting sent attempt, fun _ awaits => (by cases awaits),
      fun _ awaits => (by cases awaits)⟩
  · next absent => exact h.carriedAbsent running carries absent

/-- The owner of an aborted frame (R111, R115). -/
theorem State.ServiceOn.ownAbort {g : GrantedFrame} (h : s.ServiceOn (some g)) (running : s.Running) :
    (s.ownAbort g).ServiceOn none := by
  have idle : (∀ l ticket, some g ≠ some (.dispatch l (some ticket)) ∧ some g ≠ some (.resend l ticket)) → s.ServiceOn none :=
    fun other => h.rewire (h.silent running other) none
  unfold State.ownAbort
  split
  · exact idle (by simp)
  · split
    · exact idle (by simp)
    · exact (idle (by simp)).of_units rfl rfl rfl
  · next l ticket =>
    have carries : (GrantedFrame.resend l ticket).Carries l ticket .resending := .inr ⟨rfl, rfl⟩
    split
    · next r reported =>
      obtain ⟨found, -, isPhase⟩ := State.reported_inService reported
      have isPhase : r.phase = .resending := by simpa using isPhase
      refine h.carriedEnds running carries found fun y is => ?_
      cases is
      obtain ⟨nonzero, attempt, -, -⟩ := h.kept l r found
      rw [isPhase] at attempt
      simp only [SubState.attemptOk, decide_eq_true_eq] at attempt
      have before : (r.attempt - 1).toNat = r.attempt.toNat - 1 := by bv_omega
      refine ⟨rfl, nonzero, ?_, fun _ waits => (by cases waits), fun _ waits => (by cases waits)⟩
      simp only [SubState.attemptOk, decide_eq_true_eq, before]
      omega
    · next absent => exact h.carriedAbsent running carries absent
  · next l ticket =>
    have carries : (GrantedFrame.dispatch l (some ticket)).Carries l ticket .dispatching := .inl ⟨rfl, rfl⟩
    split
    · next r reported =>
      obtain ⟨found, -, -⟩ := State.reported_inService reported
      exact (h.carriedEnds running carries found (x := none) (by simp)).abortReturn r.record
    · next absent => exact h.carriedAbsent running carries absent
  · next l =>
    have silent : s.ServiceOn none := idle (by simp)
    split
    · next r _ =>
      have freed : (s.setLevelUnit { s.levelUnit with inTransmission := none }).ServiceOn none :=
        silent.of_same (fun _ => rfl) (fun _ => rfl) rfl
      exact freed.abortReturn r
    · exact silent

/-! ### What the trunk's symbols leave alone -/

/-- The transmitter and the liveness of the receiver are as they were. -/
def State.SameLine (s t : State) : Prop := t.trunk.tx = s.trunk.tx ∧ t.trunk.rx.live = s.trunk.rx.live

theorem State.trunkArrival_sameLine (symbols : List Symbol) : s.SameLine (s.trunkArrival symbols) :=
  State.trunkArrival_keeps symbols (fun _ live => ⟨rfl, live⟩) fun _ v _ hu =>
    State.trunkVerdict_keeps (P := s.SameLine) v hu (fun c => by simpa [State.SameLine] using hu)
      (fun l r o _ => by simpa [State.SameLine] using hu) (by simpa [State.SameLine] using hu) (fun _ => hu)
      fun tag op operands => by simpa [State.SameLine] using hu

theorem State.SameLine.onWire (h : s.SameLine t) : t.onWire = s.onWire := by
  rw [State.onWire, h.1, State.onWire]

theorem State.SameLine.linkUp (h : s.SameLine t) : t.linkUp = s.linkUp := h.2

theorem State.ServiceOn.trunkArrival {wire : Option GrantedFrame} (h : s.ServiceOn wire) (symbols : List Symbol) :
    (s.trunkArrival symbols).ServiceOn wire :=
  State.trunkArrival_keeps symbols (fun _ _ => h.of_units rfl rfl rfl) fun _ v _ hu =>
    State.trunkVerdict_keeps v hu (fun c => hu.of_units (by simp) (by simp) (by simp))
      (fun l r o _ => (serviceOn_reads wire).retire hu l r o) (hu.of_units (by simp) (by simp) (by simp))
      (fun _ => hu.of_units rfl rfl rfl) fun tag op operands => hu.of_units (by simp) (by simp) (by simp)

theorem State.ownAbort_onWire (g : GrantedFrame) : (s.ownAbort g).onWire = s.onWire := by
  refine State.ownAbort_keeps (P := fun u => u.onWire = s.onWire) rfl (fun _ _ => rfl) (fun _ _ _ _ _ => rfl)
    (fun _ r _ _ _ => ?_) fun _ r _ _ => ?_
  · rw [State.abortReturn_frame]
    rfl
  · rw [State.abortReturn_frame]
    rfl

@[simp] theorem State.answered_trunk (q : QueuedRequest) (rest : List QueuedRequest) (status : Status) (data : List Byte) :
    (s.answered q rest status data).trunk.tx = s.trunk.tx ∧ (s.answered q rest status data).trunk.rx = s.trunk.rx :=
  ⟨rfl, rfl⟩

@[simp] theorem State.produceReply_trunk (i : ReplySlotId) (r : Reply) :
    (s.produceReply i r).trunk.tx = s.trunk.tx ∧ (s.produceReply i r).trunk.rx = s.trunk.rx := ⟨rfl, rfl⟩

/-! ### Every transition -/

theorem State.ServiceOn.at_wire {wire : Option GrantedFrame} (h : t.ServiceOn wire) (same : t.onWire = wire) :
    t.ServiceOn t.onWire := same ▸ h

theorem State.ServiceOn.silent_of_free {wire : Option GrantedFrame} (h : s.ServiceOn wire) (running : s.Running)
    (idle : wire = none) : s.Silent := by
  subst idle
  exact h.silent running (by simp)

theorem State.onWire_of_free (free : s.trunkFree = true) : s.onWire = none := by
  simp only [State.trunkFree, Bool.and_eq_true, Option.isNone_iff_eq_none] at free
  rw [State.onWire, free.2]
  rfl

theorem State.trunkFree_of_grantable (may : s.eventsGrantable = true) : s.trunkFree = true := by
  simp only [State.eventsGrantable, Bool.and_eq_true] at may
  exact may.1.1.1

theorem State.serviceOn_of_empty {wire : Option GrantedFrame} (inService : ∀ l, t.inServiceAt l = none)
    (retries : ∀ l, (t.levelAt l).settings.retries.toNat ≤ 7) : t.ServiceOn wire :=
  ⟨fun l m r found => by simp [inService] at found, fun l r found => by simp [inService] at found, retries⟩

theorem State.serviceOn_initial {wire : Option GrantedFrame} (levelUnit : t.levelUnit = LevelUnit.initial)
    (service : t.service = ServiceUnit.initial) : t.ServiceOn wire := by
  refine State.serviceOn_of_empty (fun l => ?_) fun l => ?_
  · simp [State.inServiceAt, service, ServiceUnit.initial]
  · simp [State.levelAt, levelUnit, LevelUnit.initial, Level.initial, LevelSettings.initial]

section
variable (h : s.ServiceOn s.onWire)
include h

theorem State.ServiceOn.trunkLive : s.trunkLive.ServiceOn s.trunkLive.onWire := by
  refine State.trunkLive_keeps (P := fun u => u.ServiceOn u.onWire) h (fun _ _ => h.of_units rfl rfl rfl) fun running _ => ?_
  have live : (s.withTrunkRx .hunt).ServiceOn (s.withTrunkRx .hunt).onWire := h.of_units rfl rfl rfl
  have granted : (s.withTrunkRx .hunt).grantRestarted.ServiceOn (s.withTrunkRx .hunt).grantRestarted.onWire := by
    unfold State.grantRestarted
    split_ifs with grants
    · rw [Bool.and_eq_true] at grants
      have silent := live.silent_of_free running (State.onWire_of_free grants.1)
      exact (live.rewire silent _).of_units (by simp) (by simp) (by simp)
    · exact live
  exact State.ServiceOn.at_wire (granted.of_units (by simp) (by simp) (by simp)) (by simp)

theorem State.ServiceOn.trunkDead : s.trunkDead.ServiceOn s.trunkDead.onWire := by
  have same := s.trunkDown_touches
  have down : s.trunkDown.ServiceOn s.onWire :=
    h.of_units (same.levelUnit (by decide)) (congrArg ServiceUnit.inService (same.service (by decide)))
      (same.resetHeld (by decide))
  refine State.trunkDead_keeps (P := fun u => u.ServiceOn u.onWire) h (fun _ => h.of_units rfl rfl rfl)
    (fun _ _ _ => down.at_wire s.trunkDown_onWire) fun running _ g wire => ?_
  have aborted : s.trunkDown.wireAborted.ServiceOn (some g) := wire ▸ down.of_units rfl rfl rfl
  have stillRunning : s.trunkDown.wireAborted.Running := (same.resetHeld (by decide)).trans running
  exact (aborted.ownAbort stillRunning).at_wire (by rw [State.ownAbort_onWire]; rfl)

theorem State.ServiceOn.effect (running : s.Running) (d : Effect s t) : t.ServiceOn t.onWire := by
  cases d
  case nothing => exact h
  case trunkSymbols symbols => exact (h.trunkArrival symbols).at_wire (s.trunkArrival_sameLine symbols).onWire
  case classificationEnds f inFlight =>
    exact State.ServiceOn.at_wire ((h.carriedOut f).of_units (by simp) (by simp) (by simp)) (by simp [State.onWire])
  case replyGranted r rest free ready =>
    have silent := h.silent_of_free running (State.onWire_of_free free)
    exact (h.rewire silent _).of_units rfl rfl rfl
  case noticeGranted free =>
    have silent := h.silent_of_free running (State.onWire_of_free free)
    exact (h.rewire silent _).of_units (by simp) (by simp) (by simp)
  case resendGranted l r may found waits =>
    have idle := State.onWire_of_free (State.trunkFree_of_grantable may)
    obtain ⟨nonzero, attempt, -, -⟩ := h.kept l r found
    rw [waits] at attempt
    simp only [SubState.attemptOk, decide_eq_true_eq] at attempt
    have after : (r.attempt + 1).toNat = r.attempt.toNat + 1 := by bv_omega
    have resending : (s.setInService l (some { r with phase := .resending, attempt := r.attempt + 1 })).ServiceOn
        (some (.resend l r.ticket)) := by
      refine h.setInService (fun y is => ?_) (fun y is => ?_) (h.others_kept running (by simp [idle]) _)
      · cases is
        exact h.own_of_same found rfl
      · cases is
        refine ⟨nonzero, ?_, fun _ other => (by cases other), fun _ _ => rfl⟩
        simp only [SubState.attemptOk, decide_eq_true_eq, after]
        omega
    exact resending.of_units rfl rfl rfl
  case postedGranted l r rest may head posted =>
    have silent := h.silent_of_free running (State.onWire_of_free (State.trunkFree_of_grantable may))
    have taken := (serviceOn_reads _).level s l { s.levelAt l with queue := rest } (head ▸ List.sublist_cons_self r rest) rfl rfl
      (h.rewire silent (some (.dispatch l none)))
    exact taken.of_same (fun _ => rfl) (fun _ => rfl) rfl
  case heldGranted l r rest may head held free =>
    have idle := State.onWire_of_free (State.trunkFree_of_grantable may)
    have taken := (serviceOn_reads _).level s l { s.levelAt l with queue := rest } (head ▸ List.sublist_cons_self r rest) rfl rfl h
    have counted := (serviceOn_reads _).level _ l (Level.countDispatched _) (List.Sublist.refl _) rfl rfl taken
    have entered : (((s.setLevel l { s.levelAt l with queue := rest }).setLevel l (Level.countDispatched
        ((s.setLevel l { s.levelAt l with queue := rest }).levelAt l))).setInService l (some
          { record := r, ticket := s.newTicket, attempt := 1, phase := .dispatching })).ServiceOn
        (some (.dispatch l (some s.newTicket))) := by
      refine counted.setInService (fun y is m _ q found same => ?_) (fun y is => ?_)
        (counted.others_kept running (by simp [idle]) _)
      · cases is
        exact s.newTicket_unused found same.symm
      · cases is
        exact ⟨s.newTicket_ne_zero, rfl, fun _ _ => rfl, fun _ other => (by cases other)⟩
    exact entered.of_same (fun _ => rfl) (fun _ => rfl) rfl
  case replyEnds wire =>
    have silent := h.silent running (by simp [wire])
    exact (h.rewire silent _).of_units (by simp) (by simp) (by simp)
  case noticeEnds f cancelled wire =>
    have silent := h.silent running (by simp [wire])
    exact (h.rewire silent _).of_units rfl rfl rfl
  case postedEnds l wire =>
    have silent := h.silent running (by simp [wire])
    have sent : s.trunkSent.ServiceOn none := (h.rewire silent none).of_units rfl rfl rfl
    refine State.ServiceOn.at_wire (wire := none) ?_ (by simp [State.onWire, State.trunkSent])
    unfold State.postedSent
    split
    · exact sent
    · next r _ =>
      have freed : (s.trunkSent.setLevelUnit { s.trunkSent.levelUnit with inTransmission := none }).ServiceOn none :=
        sent.of_same (fun _ => rfl) (fun _ => rfl) rfl
      exact (serviceOn_reads none).serve ((serviceOn_reads none).level _ r.level (Level.countDispatched _) (List.Sublist.refl _)
        rfl rfl freed) r.level
  case heldEnds l ticket wire =>
    have sent : s.trunkSent.ServiceOn (some (.dispatch l (some ticket))) := wire ▸ h.of_units rfl rfl rfl
    exact (sent.awaitAfter running (.inl ⟨rfl, rfl⟩)).at_wire (by simp [State.onWire, State.trunkSent])
  case resendEnds l ticket wire =>
    have sent : s.trunkSent.ServiceOn (some (.resend l ticket)) := wire ▸ h.of_units rfl rfl rfl
    exact (sent.awaitAfter running (.inr ⟨rfl, rfl⟩)).at_wire (by simp [State.onWire, State.trunkSent])
  case timerResends l r units found timed remain =>
    obtain ⟨nonzero, attempt, -, -⟩ := h.kept l r found
    rw [timed] at attempt
    simp only [SubState.attemptOk, decide_eq_true_eq] at attempt
    have limit := h.retries l
    have waits : (s.setInService l (some { r with phase := .resendWait })).ServiceOn s.onWire := by
      refine h.setInService (fun y is => ?_) (fun y is => ?_) fun m _ => h.kept m
      · cases is
        exact h.own_of_same found rfl
      · cases is
        refine ⟨nonzero, ?_, fun _ other => (by cases other), fun _ other => (by cases other)⟩
        simp only [SubState.attemptOk, decide_eq_true_eq]
        omega
    exact waits
  case timerLapses l r inService =>
    exact ((serviceOn_reads _).retire h l r .lapsed).at_wire (by simp [State.onWire])
  case countsCleared q rest data l head =>
    have cleared : (s.setLevel l (s.levelAt l).clearCounts).ServiceOn s.onWire := h.setLevel rfl
    exact State.ServiceOn.at_wire (cleared.of_units (by simp) (by simp) (by simp)) (by simp [State.onWire])
  case levelSet q rest l settings head legal room =>
    have set : (s.setLevel l { s.levelAt l with settings := settings }).ServiceOn s.onWire := by
      refine ⟨h.distinct, h.kept, fun m => ?_⟩
      rw [State.setLevel_levelAt]
      split_ifs
      · exact (settingsOperand_range legal).2.2
      · exact h.retries m
    exact State.ServiceOn.at_wire (set.of_units (by simp) (by simp) (by simp)) (by simp [State.onWire])
  case maskSet q rest data mask head =>
    have masked : (s.setLevelUnit (s.levelUnit.withMask mask)).ServiceOn s.onWire :=
      h.of_same (fun _ => rfl) (fun l => by rw [State.withMask_levelAt]) rfl
    exact State.ServiceOn.at_wire (masked.of_units (by simp) (by simp) (by simp)) (by simp [State.onWire])
  case poolRead q rest data head =>
    have read : (s.setLevelUnit { s.levelUnit with lowWater := byteOf s.freeRecords, refusals := 0 }).ServiceOn s.onWire :=
      h.of_same (fun _ => rfl) (fun _ => rfl) rfl
    exact State.ServiceOn.at_wire (read.of_units (by simp) (by simp) (by simp)) (by simp [State.onWire])
  case flushed q rest data l head =>
    exact State.ServiceOn.at_wire (((serviceOn_reads _).flush h l).of_units (by simp) (by simp) (by simp))
      (by simp [State.onWire])
  case noticesSet q rest data enables head =>
    have cancelled : s.ServiceOn (s.onWire.map (GrantedFrame.cancelIfOff enables)) := by
      refine ⟨h.distinct, fun l r found => ?_, h.retries⟩
      obtain ⟨ticket, attempt, dispatching, resending⟩ := h.kept l r found
      exact ⟨ticket, attempt, fun low phase => by rw [dispatching low phase]; rfl, fun low phase => by rw [resending low phase]; rfl⟩
    exact State.ServiceOn.at_wire (cancelled.of_units (by simp) (by simp) (by simp))
      (by simp [State.onWire, State.enableNotices, TrunkTransmitter.cancelIfOff, Function.comp_def])
  case trafficReset q rest head =>
    refine State.serviceOn_of_empty (fun l => ?_) fun l => ?_
    · simp [State.answer, State.inServiceAt, ServiceUnit.traffic]
    · simpa [State.answer, State.levelAt, LevelUnit.traffic] using h.retries l
  case fullReset q rest head => exact State.serviceOn_initial rfl rfl
  all_goals
    exact State.ServiceOn.at_wire (h.of_units (by simp) (by simp) (by simp)) (by simp [State.onWire])

theorem State.ServiceOn.transition (d : Transition s t) : t.ServiceOn t.onWire := by
  cases d with
  | waits => exact h
  | resetFalls =>
    refine ⟨h.distinct, fun l r found => ?_, h.retries⟩
    exact ⟨(h.kept l r found).ticket, (h.kept l r found).attempt, fun low => (by cases low), fun low => (by cases low)⟩
  | resetReleased lines =>
    rw [State.released_frame]
    exact State.serviceOn_initial rfl rfl
  | fieldLive p => exact State.ServiceOn.at_wire (h.of_units (by simp) (by simp) (by simp)) (by simp [State.onWire])
  | fieldDead p => exact State.ServiceOn.at_wire (h.of_units (by simp) (by simp) (by simp)) (by simp [State.onWire])
  | trunkLive => exact h.trunkLive
  | trunkDead => exact h.trunkDead
  | runs running effect => exact h.effect running effect

end

end

/-- Settles O59: a record enters service with a number of its own, and its sub-state follows its frame. -/
theorem everyStepKeepsTheService : Obligations.EveryStepKeepsTheService := by
  refine step_keeps (fun _ _ h => h) fun s t h d => ?_
  rw [State.serviceKept_iff] at h ⊢
  exact h.transition d

end Sys2Proof.Machine
end

section
/-!
The trunk and the notices, step by step (R130 to R135): when a frame is on the wire, what is latched and what is returned.
-/

namespace Sys2Proof.Machine

/-! ### Causes of notices -/

/-- Causes have reached the Notice Unit, and nothing else: RESTARTED, the returned notice, the enables and the counter are as they
were, only kinds that are on have been latched, and no latched count is 0 if none was. -/
structure NoticeUnit.Grown (n m : NoticeUnit) : Prop where
  restarted : m.restarted = n.restarted
  returned : m.returned = n.returned
  enables : m.enables = n.enables
  nseq : m.nseq = n.nseq
  latched : ∀ kind, m.latched kind = true → n.latched kind = true ∨ kindOn n.enables kind = true
  lapse : (∀ x ∈ n.lapse, x.count ≠ 0) → ∀ x ∈ m.lapse, x.count ≠ 0
  pool : (∀ x ∈ n.pool, x ≠ 0) → ∀ x ∈ m.pool, x ≠ 0

theorem NoticeUnit.Grown.refl (n : NoticeUnit) : n.Grown n :=
  ⟨rfl, rfl, rfl, rfl, fun _ latched => .inl latched, id, id⟩

theorem NoticeUnit.Grown.trans {n m k : NoticeUnit} (h : n.Grown m) (g : m.Grown k) : n.Grown k where
  restarted := g.restarted.trans h.restarted
  returned := g.returned.trans h.returned
  enables := g.enables.trans h.enables
  nseq := g.nseq.trans h.nseq
  latched kind latched := (g.latched kind latched).elim (h.latched kind) fun on => .inr (h.enables ▸ on)
  lapse := g.lapse ∘ h.lapse
  pool := g.pool ∘ h.pool

section
variable (n : NoticeUnit)

theorem NoticeUnit.portCause_grown (p : PortId) : n.Grown (n.portCause p) := by
  unfold NoticeUnit.portCause
  split_ifs with on
  · refine ⟨rfl, rfl, rfl, rfl, fun kind latched => ?_, id, id⟩
    cases kind with
    | port => exact .inr on
    | restarted | level | lapse | pool | trunk => exact .inl latched
  · exact .refl n

theorem NoticeUnit.levelCause_grown (l : LevelId) : n.Grown (n.levelCause l) := by
  unfold NoticeUnit.levelCause
  split_ifs with on
  · refine ⟨rfl, rfl, rfl, rfl, fun kind latched => ?_, id, id⟩
    cases kind with
    | level => exact .inr on
    | restarted | port | lapse | pool | trunk => exact .inl latched
  · exact .refl n

theorem NoticeUnit.trunkCause_grown (c : TrunkCondition) : n.Grown (n.trunkCause c) := by
  unfold NoticeUnit.trunkCause
  split_ifs with on
  · refine ⟨rfl, rfl, rfl, rfl, fun kind latched => ?_, id, id⟩
    cases kind with
    | trunk => exact .inr on
    | restarted | port | level | lapse | pool => exact .inl latched
  · exact .refl n

theorem NoticeUnit.lapseCause_grown (ticket : Byte) (l : LevelId) : n.Grown (n.lapseCause ticket l) := by
  unfold NoticeUnit.lapseCause
  split_ifs with on
  · refine ⟨rfl, rfl, rfl, rfl, fun kind latched => ?_, fun _ x is => ?_, id⟩
    · cases kind with
      | lapse => exact .inr on
      | restarted | port | level | pool | trunk => exact .inl latched
    · cases is
      exact satInc_ne_zero (by decide) _
  · exact .refl n

theorem NoticeUnit.poolCause_grown : n.Grown n.poolCause := by
  unfold NoticeUnit.poolCause
  split_ifs with on
  · refine ⟨rfl, rfl, rfl, rfl, fun kind latched => ?_, id, fun _ x is => ?_⟩
    · cases kind with
      | pool => exact .inr on
      | restarted | port | level | lapse | trunk => exact .inl latched
    · cases is
      exact satInc_ne_zero (by decide) _
  · exact .refl n

end

/-! ### What raises causes -/

/-- Causes have reached the Notice Unit between two states. -/
def State.Causes (s t : State) : Prop := s.notices.Grown t.notices

section
variable {s t : State}

theorem State.Causes.refl (s : State) : s.Causes s := NoticeUnit.Grown.refl _

theorem State.causes_of_same (same : t.notices = s.notices) : s.Causes t := by
  rw [State.Causes, same]
  exact .refl _

theorem State.Causes.trans {u : State} (h : s.Causes t) (g : t.Causes u) : s.Causes u := NoticeUnit.Grown.trans h g

theorem State.raisePort_causes (s : State) (p : PortId) (c : PortCondition) : s.Causes (s.raisePort p c) := by
  unfold State.raisePort
  split_ifs
  · exact .refl s
  · exact s.notices.portCause_grown p
  · exact .refl s

theorem State.raiseTrunk_causes (s : State) (c : TrunkCondition) : s.Causes (s.raiseTrunk c) := by
  unfold State.raiseTrunk
  split_ifs
  · exact .refl s
  · exact s.notices.trunkCause_grown c

theorem State.raiseStray_causes (s : State) : s.Causes s.raiseStray :=
  State.raiseTrunk_causes (s.setTrunk { s.trunk with strays := satInc s.trunk.strays }) .stray

theorem State.requestRelease_causes (s : State) (o : Requester) (q : ReleaseRequest) : s.Causes (s.requestRelease o q) :=
  State.requestRelease_keeps o q (.refl s) (fun _ _ _ => .refl s) fun p => s.raisePort_causes p .releaseLost

/-- What the levels and the service do raises causes and no more. -/
theorem causes_levelsUnread (s : State) : LevelsUnread s.Causes where
  setLevelUnit _ _ h := h
  setService _ _ h := h
  levelCause u l h := h.trans (u.notices.levelCause_grown l)
  poolCause u h := h.trans u.notices.poolCause_grown
  lapseCause u ticket l h := h.trans (u.notices.lapseCause_grown ticket l)
  requestRelease u o q h := h.trans (u.requestRelease_causes o q)

theorem State.portVerdict_causes (s : State) (p : PortId) (v : Verdict) : s.Causes (s.portVerdict p v) :=
  State.portVerdict_keeps (.refl s) (fun c => s.raisePort_causes p c) fun _ _ _ _ _ _ => .refl s

theorem State.fieldArrival_causes (s : State) (p : PortId) (symbols : List Symbol) : s.Causes (s.fieldArrival p symbols) :=
  State.fieldArrival_keeps symbols (fun _ _ => .refl s) fun u v _ hu => hu.trans (u.portVerdict_causes p v)

theorem State.takeRequest_causes (s : State) (tag op : Byte) (operands : List Byte) : s.Causes (s.takeRequest tag op operands) := by
  unfold State.takeRequest State.refuse
  split
  · exact .refl s
  · split
    · exact s.raiseTrunk_causes .mgmtDrop
    · exact .refl s

theorem State.trunkArrival_causes (s : State) (symbols : List Symbol) : s.Causes (s.trunkArrival symbols) :=
  State.trunkArrival_keeps symbols (fun _ _ => .refl s) fun u v _ hu =>
    State.trunkVerdict_keeps v hu (fun c => hu.trans (u.raiseTrunk_causes c))
      (fun l r o _ => (causes_levelsUnread s).retire hu l r o) (hu.trans u.raiseStray_causes) (fun _ => hu)
      fun tag op operands => hu.trans (u.takeRequest_causes tag op operands)

theorem State.fieldLive_causes (s : State) (p : PortId) : s.Causes (s.fieldLive p) := by
  by_cases dead : (look s.ports p).rx = .dead
  · rw [State.fieldLive_of_dead dead]
    split_ifs
    · exact State.raisePort_causes (s.withPortRx p .hunt) p .linkChange
    · exact .refl s
  · rw [State.fieldLive_of_live dead]
    exact .refl s

theorem State.fieldDead_causes (s : State) (p : PortId) : s.Causes (s.fieldDead p) := by
  by_cases dead : (look s.ports p).rx = .dead
  · rw [State.fieldDead_of_dead dead]
    exact .refl s
  · cases running : s.resetHeld with
    | true =>
      rw [State.fieldDead_of_held running]
      exact .refl s
    | false =>
      have cut : s.Causes ((s.portDown p).portVerdict? p (look s.ports p).rx.goDead.2) := by
        cases (look s.ports p).rx.goDead.2 with
        | none => exact .refl s
        | some v => exact State.portVerdict_causes (s.portDown p) p v
      rw [State.fieldDead_of_live running dead]
      split_ifs
      · exact cut.trans (State.raisePort_causes _ p .linkChange)
      · exact cut

theorem State.trunkDown_causes (s : State) : s.Causes s.trunkDown := by
  unfold State.trunkDown
  split_ifs
  · exact State.raiseTrunk_causes (s.withTrunkRx .dead) .linkChange
  · exact (State.raiseTrunk_causes (s.withTrunkRx .dead) .framing).trans (State.raiseTrunk_causes _ .linkChange)

theorem State.carriedOut_causes (s : State) (f : FlightEvent) : s.Causes (s.carriedOut f) :=
  (causes_levelsUnread s).carryOut (fun _ _ _ hu => hu) (s := s.countHit f) (State.causes_of_same rfl) f _

end

/-! ### The latches and the returned notice -/

/-- A kind that is off has neither latch nor returned notice (R135); a latched count is at least 1 (R132). -/
structure NoticeUnit.Kept (n : NoticeUnit) : Prop where
  returned : ∀ f ∈ n.returned, kindOn n.enables f.kind = true
  latched : ∀ kind, n.latched kind = true → kindOn n.enables kind = true
  lapse : ∀ x ∈ n.lapse, x.count ≠ 0
  pool : ∀ x ∈ n.pool, x ≠ 0

/-- A NOTICE on the wire is of a kind that is on or is cancelled, and no notice is returned meanwhile (R134, R135). -/
def NoticeUnit.WireOk (n : NoticeUnit) (wire : Option GrantedFrame) : Prop :=
  ∀ g ∈ wire, g.noticeOk n.enables = true ∧ (g.isNotice = true → n.returned = none)

/-- Frames go out only while the link is UP and RESET_N is not held low (R10, R130, R136). -/
def State.WireUp (s : State) : Prop := s.onWire.isSome → s.linkUp = true ∧ s.resetHeld = false

theorem mem_noticeOrder (kind : NoticeKind) : kind ∈ noticeOrder := by
  cases kind <;> decide

theorem State.trunkKept_iff {s : State} : s.TrunkKept ↔ s.WireUp ∧ s.notices.WireOk s.onWire ∧ s.notices.Kept := by
  constructor
  · rintro ⟨up, wire, returned, latched, lapse, pool⟩
    exact ⟨up, wire, returned, fun kind => latched kind (mem_noticeOrder kind), lapse, pool⟩
  · rintro ⟨up, wire, returned, latched, lapse, pool⟩
    exact ⟨up, wire, returned, fun kind _ => latched kind, lapse, pool⟩

section
variable {n m : NoticeUnit}

theorem NoticeUnit.Kept.grown (h : n.Kept) (g : n.Grown m) : m.Kept where
  returned f returned := by
    rw [g.enables]
    exact h.returned f (g.returned ▸ returned)
  latched kind latched := by
    rw [g.enables]
    exact (g.latched kind latched).elim (h.latched kind) id
  lapse := g.lapse h.lapse
  pool := g.pool h.pool

theorem NoticeUnit.WireOk.grown {wire : Option GrantedFrame} (h : n.WireOk wire) (g : n.Grown m) : m.WireOk wire := by
  intro frame on
  rw [g.enables, g.returned]
  exact h frame on

theorem NoticeUnit.wireOk_none (n : NoticeUnit) : n.WireOk none := fun _ on => (by cases on)

/-- The freeze of a latched kind clears its latch alone and counts the notice. -/
theorem NoticeUnit.afterFreeze_latched {kind other : NoticeKind} (latched : (n.afterFreeze kind).latched other = true) :
    n.latched other = true := by
  cases kind <;> cases other <;> first | exact latched | cases latched

theorem NoticeUnit.Kept.afterFreeze (h : n.Kept) (kind : NoticeKind) : (n.afterFreeze kind).Kept := by
  have same : (n.afterFreeze kind).enables = n.enables ∧ (n.afterFreeze kind).returned = n.returned ∧
      ((n.afterFreeze kind).lapse = n.lapse ∨ (n.afterFreeze kind).lapse = none) ∧
      ((n.afterFreeze kind).pool = n.pool ∨ (n.afterFreeze kind).pool = none) := by
    cases kind <;> simp [NoticeUnit.afterFreeze, NoticeUnit.clearKind]
  obtain ⟨enables, returned, lapse, pool⟩ := same
  refine ⟨?_, fun other latched => ?_, ?_, ?_⟩
  · rw [enables, returned]
    exact h.returned
  · rw [enables]
    exact h.latched other (NoticeUnit.afterFreeze_latched latched)
  · rcases lapse with same | none
    · exact same ▸ h.lapse
    · simp [none]
  · rcases pool with same | none
    · exact same ▸ h.pool
    · simp [none]

/-- NOTICE-ENABLE drops what is latched or returned for a kind that is off (R135). -/
theorem NoticeUnit.Kept.withEnables (h : n.Kept) (enables : BitVec 5) : (n.withEnables enables).Kept := by
  refine ⟨fun f returned => ?_, fun kind latched => ?_, fun x is => ?_, fun x is => ?_⟩
  · exact (Option.filter_eq_some_iff.mp returned).2
  · cases kind with
    | restarted => rfl
    | port | level | lapse | pool | trunk =>
      by_contra off
      rw [Bool.not_eq_true] at off
      simp [NoticeUnit.withEnables, NoticeUnit.latched, keptIf, show kindOn enables _ = false from off] at latched
  · refine h.lapse x ?_
    simp only [NoticeUnit.withEnables, keptIf] at is
    split_ifs at is
    · exact is
    · cases is
  · refine h.pool x ?_
    simp only [NoticeUnit.withEnables, keptIf] at is
    split_ifs at is
    · exact is
    · cases is

theorem GrantedFrame.cancelIfOff_noticeOk (enables : BitVec 5) (g : GrantedFrame) :
    (g.cancelIfOff enables).noticeOk enables = true := by
  cases g with
  | notice frame cancelled =>
    simp only [GrantedFrame.cancelIfOff, GrantedFrame.noticeOk]
    cases kindOn enables frame.kind <;> cases cancelled <;> rfl
  | reply => rfl
  | resend l ticket => rfl
  | dispatch l ticket => rfl

theorem GrantedFrame.cancelIfOff_isNotice (enables : BitVec 5) (g : GrantedFrame) :
    (g.cancelIfOff enables).isNotice = g.isNotice := by
  cases g <;> rfl

theorem NoticeUnit.WireOk.withEnables {wire : Option GrantedFrame} (h : n.WireOk wire) (enables : BitVec 5) :
    (n.withEnables enables).WireOk (wire.map (GrantedFrame.cancelIfOff enables)) := by
  intro g on
  obtain ⟨frame, sent, rfl⟩ := Option.mem_map.mp on
  refine ⟨frame.cancelIfOff_noticeOk enables, fun notice => ?_⟩
  rw [GrantedFrame.cancelIfOff_isNotice] at notice
  simp [NoticeUnit.withEnables, (h frame sent).2 notice]

end

/-! ### The wire -/

/-- What TrunkKept says of a state. -/
structure State.TrunkOk (s : State) : Prop where
  up : s.WireUp
  wire : s.notices.WireOk s.onWire
  notices : s.notices.Kept

section
variable {s t : State} (h : s.TrunkOk)
include h

/-- Causes have been raised; the wire, the link and RESET_N are as they were. -/
theorem State.TrunkOk.of_causes (causes : s.Causes t) (wire : t.onWire = s.onWire) (link : t.linkUp = s.linkUp)
    (held : t.resetHeld = s.resetHeld) : t.TrunkOk := by
  obtain ⟨up, ok, notices⟩ := h
  refine ⟨?_, ?_, notices.grown causes⟩
  · rw [State.WireUp, wire, link, held]
    exact up
  · rw [wire]
    exact ok.grown causes

theorem State.TrunkOk.of_same (notices : t.notices = s.notices) (tx : t.trunk.tx = s.trunk.tx)
    (rx : t.trunk.rx.live = s.trunk.rx.live) (held : t.resetHeld = s.resetHeld) : t.TrunkOk :=
  h.of_causes (State.causes_of_same notices) (by rw [State.onWire, tx, State.onWire]) rx held

/-- Nothing is on the wire any more. -/
theorem State.TrunkOk.of_wireFree (causes : s.Causes t) (wire : t.onWire = none) : t.TrunkOk := by
  refine ⟨fun sent => ?_, wire ▸ t.notices.wireOk_none, h.notices.grown causes⟩
  rw [wire] at sent
  cases sent

/-- A frame that is not a notice is granted. -/
theorem State.TrunkOk.of_sent (running : s.Running) (free : s.trunkFree = true) (notices : t.notices = s.notices)
    (link : t.linkUp = s.linkUp) (held : t.resetHeld = s.resetHeld) {g : GrantedFrame} (wire : t.onWire = some g)
    (other : g.isNotice = false) : t.TrunkOk := by
  simp only [State.trunkFree, Bool.and_eq_true] at free
  refine ⟨fun _ => ⟨link.trans free.1, held.trans running⟩, fun frame on => ?_, notices ▸ h.notices⟩
  obtain rfl : g = frame := Option.some.inj (wire.symm.trans on)
  cases g with
  | notice frame cancelled => cases other
  | reply => exact ⟨rfl, fun notice => by cases notice⟩
  | resend l ticket => exact ⟨rfl, fun notice => by cases notice⟩
  | dispatch l ticket => exact ⟨rfl, fun notice => by cases notice⟩

/-- The notice class is granted: of a kind that is on, and none stays returned (R130, R134). -/
theorem State.TrunkOk.grantNotice (running : s.Running) (free : s.trunkFree = true) : s.grantNotice.TrunkOk := by
  obtain ⟨up, wire, notices⟩ := h
  simp only [State.trunkFree, Bool.and_eq_true] at free
  unfold State.grantNotice
  split
  · next frame returned =>
    refine ⟨fun _ => ⟨free.1, running⟩, fun g on => ?_, ⟨by simp, notices.latched, notices.lapse, notices.pool⟩⟩
    cases on
    exact ⟨by simpa [GrantedFrame.noticeOk] using notices.returned frame returned, fun _ => rfl⟩
  · next none =>
    split
    · next kind next =>
      have latched : s.notices.latched kind = true := List.find?_some next
      have enables : (s.notices.afterFreeze kind).enables = s.notices.enables := by cases kind <;> rfl
      have returned : (s.notices.afterFreeze kind).returned = s.notices.returned := by cases kind <;> rfl
      refine ⟨fun _ => ⟨free.1, running⟩, fun g on => ?_, notices.afterFreeze kind⟩
      cases on
      refine ⟨?_, fun _ => returned.trans none⟩
      have on := notices.latched kind latched
      rw [← enables] at on
      simpa [GrantedFrame.noticeOk, NoticeUnit.freeze] using on
    · exact ⟨up, wire, notices⟩

theorem State.TrunkOk.grantRestarted (running : s.Running) : s.grantRestarted.TrunkOk := by
  rcases s.grantRestarted_cases with same | ⟨free, -, granted⟩
  · rw [same]
    exact h
  · rw [granted]
    exact h.grantNotice running free

/-- While RESET_N is held low, or the link is DOWN, nothing is on the wire. -/
theorem State.TrunkOk.wireFree (down : s.resetHeld = true ∨ s.linkUp = false) : s.onWire = none := by
  rw [← Option.not_isSome_iff_eq_none]
  intro sent
  obtain ⟨up, running⟩ := h.up sent
  rcases down with held | off
  · rw [running] at held
    cases held
  · rw [up] at off
    cases off

theorem State.TrunkOk.trunkLive : s.trunkLive.TrunkOk := by
  refine State.trunkLive_keeps h (fun held _ => ?_) fun running dead => ?_
  · exact h.of_wireFree (State.causes_of_same rfl) (h.wireFree (.inl held))
  · have down : s.linkUp = false := by simp [State.linkUp, dead, Receiver.live]
    have live : (s.withTrunkRx .hunt).TrunkOk := h.of_wireFree (State.causes_of_same rfl) (h.wireFree (.inr down))
    exact (live.grantRestarted running).of_causes (State.raiseTrunk_causes _ _) (by simp) (by simp [State.linkUp]) (by simp)

theorem State.TrunkOk.ownAbort {g : GrantedFrame} (wire : s.onWire = none) (ok : g.noticeOk s.notices.enables = true) :
    (s.ownAbort g).TrunkOk := by
  refine State.ownAbort_keeps h (fun frame notice => ?_) (fun _ _ _ _ _ => h.of_wireFree (State.causes_of_same rfl) wire)
    (fun l r _ _ _ => ?_) fun l r _ _ => ?_
  · subst notice
    refine ⟨h.up, fun g on => ?_, ⟨fun f returned => ?_, h.notices.latched, h.notices.lapse, h.notices.pool⟩⟩
    · have sent : s.onWire = some g := on
      rw [wire] at sent
      cases sent
    · cases returned
      simpa [GrantedFrame.noticeOk] using ok
  · have causes : s.Causes ((s.setInService l none).abortReturn r.record) :=
      (causes_levelsUnread s).abortReturn (s := s.setInService l none) (.refl s) r.record
    refine h.of_wireFree causes ?_
    rw [State.abortReturn_frame]
    exact wire
  · have causes : s.Causes ((s.setLevelUnit { s.levelUnit with inTransmission := none }).abortReturn r) :=
      (causes_levelsUnread s).abortReturn (s := s.setLevelUnit { s.levelUnit with inTransmission := none }) (.refl s) r
    refine h.of_wireFree causes ?_
    rw [State.abortReturn_frame]
    exact wire

theorem State.TrunkOk.trunkDead : s.trunkDead.TrunkOk := by
  refine State.trunkDead_keeps h (fun held => ?_) (fun _ _ wire => ?_) fun _ _ g wire => ?_
  · exact h.of_wireFree (State.causes_of_same rfl) (h.wireFree (.inl held))
  · exact h.of_wireFree s.trunkDown_causes (s.trunkDown_onWire.trans wire)
  · have aborted : s.trunkDown.wireAborted.TrunkOk := h.of_wireFree s.trunkDown_causes rfl
    refine aborted.ownAbort rfl ?_
    rw [show s.trunkDown.wireAborted.notices.enables = s.notices.enables from s.trunkDown_causes.enables]
    exact (h.wire g wire).1

omit h in
theorem NoticeUnit.initial_kept (cause : RestartCause) (tag : Byte) : (NoticeUnit.initial cause tag).Kept := by
  refine ⟨by simp [NoticeUnit.initial], fun kind latched => ?_, by simp [NoticeUnit.initial], by simp [NoticeUnit.initial]⟩
  cases kind with
  | restarted => rfl
  | port | level | lapse | pool | trunk => cases latched

omit h in
theorem State.trunkOk_initial {cause : RestartCause} {tag : Byte} (notices : t.notices = NoticeUnit.initial cause tag)
    (wire : t.onWire = none) : t.TrunkOk := by
  refine ⟨fun sent => ?_, wire ▸ t.notices.wireOk_none, notices ▸ NoticeUnit.initial_kept cause tag⟩
  rw [wire] at sent
  cases sent

theorem State.TrunkOk.effect (running : s.Running) (d : Effect s t) : t.TrunkOk := by
  cases d
  case nothing => exact h
  case fieldSymbols p symbols =>
    exact h.of_causes (s.fieldArrival_causes p symbols) (by simp [State.onWire]) (by simp [State.linkUp]) (by simp)
  case trunkSymbols symbols =>
    have line := s.trunkArrival_sameLine symbols
    exact h.of_causes (s.trunkArrival_causes symbols) line.onWire line.linkUp (by simp)
  case classificationEnds f inFlight =>
    have causes : s.Causes (s.completeFlight f) := by
      have carried := s.carriedOut_causes f
      rw [State.Causes] at carried ⊢
      simpa using carried
    exact h.of_causes causes (by simp [State.onWire]) (by simp [State.linkUp]) (by simp)
  case replyGranted r rest free ready => exact h.of_sent running free rfl rfl rfl (g := .reply) rfl rfl
  case noticeGranted free => exact h.grantNotice running free
  case resendGranted l r may found waits =>
    exact h.of_sent running (State.trunkFree_of_grantable may) rfl rfl rfl (g := .resend l r.ticket) rfl rfl
  case postedGranted l r rest may head posted =>
    exact h.of_sent running (State.trunkFree_of_grantable may) rfl rfl rfl (g := .dispatch l none) rfl rfl
  case heldGranted l r rest may head held free =>
    exact h.of_sent running (State.trunkFree_of_grantable may) rfl rfl rfl (g := .dispatch l (some s.newTicket)) rfl rfl
  case replyEnds wire =>
    exact h.of_wireFree (State.causes_of_same (by simp)) (by simp [State.onWire, State.trunkSent])
  case noticeEnds f cancelled wire => exact h.of_wireFree (State.causes_of_same rfl) rfl
  case postedEnds l wire =>
    exact h.of_wireFree (State.causes_of_same (by simp)) (by simp [State.onWire, State.trunkSent])
  case heldEnds l ticket wire =>
    exact h.of_wireFree (State.causes_of_same (by simp)) (by simp [State.onWire, State.trunkSent])
  case resendEnds l ticket wire =>
    exact h.of_wireFree (State.causes_of_same (by simp)) (by simp [State.onWire, State.trunkSent])
  case timerLapses l r inService =>
    have causes : s.Causes (s.retire l r .lapsed) := (causes_levelsUnread s).retire (.refl s) l r .lapsed
    exact h.of_causes causes (by simp [State.onWire]) (by simp [State.linkUp]) (by simp)
  case flushed q rest data l head =>
    have causes : s.Causes (s.flush l) := (causes_levelsUnread s).flush (.refl s) l
    exact h.of_causes (causes.trans (State.causes_of_same (by simp))) (by simp [State.onWire]) (by simp [State.linkUp]) (by simp)
  case noticesSet q rest data enables head =>
    refine ⟨?_, ?_, ?_⟩
    · simpa [State.WireUp, State.onWire, State.linkUp, State.enableNotices, TrunkTransmitter.cancelIfOff] using h.up
    · simpa [State.onWire, State.enableNotices, TrunkTransmitter.cancelIfOff, Function.comp_def] using
        h.wire.withEnables enables
    · simpa [State.enableNotices] using h.notices.withEnables enables
  case trafficReset q rest head =>
    exact h.of_same (by simp [State.answer]) (by simp [State.answer]) (by simp [State.answer]) (by simp [State.answer])
  case fullReset q rest head =>
    exact State.trunkOk_initial rfl (by simp [State.fullReset, State.onWire, TrunkPort.full])
  all_goals exact h.of_same (by simp) (by simp) (by simp) (by simp)

theorem State.TrunkOk.transition (d : Transition s t) : t.TrunkOk := by
  cases d with
  | waits => exact h
  | resetFalls => exact h.of_wireFree (State.causes_of_same rfl) (by simp [State.onWire])
  | resetReleased lines =>
    have initial : (State.initialised lines s.pending).TrunkOk := State.trunkOk_initial rfl rfl
    exact initial.grantRestarted rfl
  | fieldLive p =>
    exact h.of_causes (s.fieldLive_causes p) (by simp [State.onWire]) (by simp [State.linkUp]) (by simp)
  | fieldDead p =>
    exact h.of_causes (s.fieldDead_causes p) (by simp [State.onWire]) (by simp [State.linkUp]) (by simp)
  | trunkLive => exact h.trunkLive
  | trunkDead => exact h.trunkDead
  | runs running effect => exact h.effect running effect

end

end Sys2Proof.Machine
end

section
/-!
The reply slots and the refusal slots, step by step (R139 to R143): every held slot stands for one request in one progress state.
-/

namespace Sys2Proof.Machine

/-! ### A table and its uses -/

section
variable {n : Nat} {α : Type}

/-- The places that are held in a table are in use, each once, and hold what their use ok. -/
structure Backed (table : Vector (Option α) n) (uses : List (Fin n × (α → Prop))) : Prop where
  distinct : (uses.map Prod.fst).Nodup
  used : ∀ i, (look table i).isSome → i ∈ uses.map Prod.fst
  holds : ∀ u ∈ uses, ∃ x, look table u.1 = some x ∧ u.2 x

variable {table : Vector (Option α) n} {uses rest : List (Fin n × (α → Prop))} {i : Fin n} {p q : α → Prop}

theorem Backed.perm {other : List (Fin n × (α → Prop))} (h : Backed table uses) (perm : uses.Perm other) : Backed table other where
  distinct := (perm.map Prod.fst).nodup_iff.mp h.distinct
  used i held := (perm.map Prod.fst).mem_iff.mp (h.used i held)
  holds u mem := h.holds u (perm.mem_iff.mpr mem)

/-- The other uses do not see a place that is not theirs. -/
theorem Backed.rest_holds (h : Backed table ((i, p) :: rest)) (x : Option α) :
    ∀ u ∈ rest, ∃ y, look (put table i x) u.1 = some y ∧ u.2 y := by
  intro u mem
  have ne : i ≠ u.1 := fun same => (List.nodup_cons.mp h.distinct).1 (by
    rw [show (i, p).1 = u.1 from same]
    exact List.mem_map_of_mem mem)
  rw [look_put_ne _ _ ne]
  exact h.holds u (List.mem_cons_of_mem _ mem)

/-- A place's content and its use change together. -/
theorem Backed.move (h : Backed table ((i, p) :: rest)) {x : α} (ok : q x) : Backed (put table i (some x)) ((i, q) :: rest) where
  distinct := h.distinct
  used j held := by
    rw [look_put] at held
    split_ifs at held with same
    · rw [← same]
      exact List.mem_cons_self
    · exact h.used j held
  holds u mem := by
    rcases List.mem_cons.mp mem with rfl | later
    · exact ⟨x, look_put_self _ _ _, ok⟩
    · exact h.rest_holds (some x) u later

/-- A place is given up with its use. -/
theorem Backed.remove (h : Backed table ((i, p) :: rest)) : Backed (put table i none) rest where
  distinct := (List.nodup_cons.mp h.distinct).2
  used j held := by
    rw [look_put] at held
    split_ifs at held with same
    · cases held
    · exact (List.mem_cons.mp (h.used j held)).resolve_left fun equal => same equal.symm
  holds := h.rest_holds none

/-- A free place is taken for a new use. -/
theorem Backed.add (h : Backed table uses) (free : look table i = none) {x : α} (ok : q x) :
    Backed (put table i (some x)) ((i, q) :: uses) := by
  have unused : i ∉ uses.map Prod.fst := by
    intro mem
    obtain ⟨u, used, rfl⟩ := List.mem_map.mp mem
    obtain ⟨y, there, -⟩ := h.holds u used
    rw [free] at there
    cases there
  refine ⟨List.nodup_cons.mpr ⟨unused, h.distinct⟩, fun j held => ?_, fun u mem => ?_⟩
  · rw [look_put] at held
    split_ifs at held with same
    · rw [← same]
      exact List.mem_cons_self
    · exact List.mem_cons_of_mem _ (h.used j held)
  · rcases List.mem_cons.mp mem with rfl | old
    · exact ⟨x, look_put_self _ _ _, ok⟩
    · have ne : i ≠ u.1 := fun same => unused (same ▸ List.mem_map_of_mem old)
      rw [look_put_ne _ _ ne]
      exact h.holds u old

theorem Backed.empty : Backed (Vector.replicate n (none : Option α)) [] where
  distinct := List.nodup_nil
  used i held := by simp at held
  holds u mem := by cases mem

end

/-! ### The uses of the slots -/

/-- A reply slot with what it holds for its request. -/
abbrev SlotUse := ReplySlotId × (ReplySlot → Prop)

/-- A request in the queue. -/
def queuedUse (q : QueuedRequest) : SlotUse := (q.slot, (· = { tag := q.tag, op := q.op, progress := .queued }))

/-- A reply that comes later. -/
def awaitedUse (r : PendingReply) : SlotUse := (r.slot, fun x => x.tag = r.tag ∧ x.progress = .awaitingCompletion)

/-- A reply in the reply class. -/
def readyUse (r : ProducedReply) : Option SlotUse :=
  r.source.replySlot?.map fun i => (i, (· = { tag := r.reply.tag, op := r.reply.op, progress := .replyReady }))

/-- A refusal in the reply class. -/
def refusalUse (r : ProducedReply) : Option (RefusalSlotId × (Reply → Prop)) :=
  r.source.refusalSlot?.map fun i => (i, (· = r.reply))

/-- The uses of the reply slots. -/
def State.replyUses (s : State) : List SlotUse :=
  s.management.queue.map queuedUse ++ s.awaitedReplies.map awaitedUse ++ s.trunk.replies.filterMap readyUse

/-- The uses of the refusal slots. -/
def State.refusalUses (s : State) : List (RefusalSlotId × (Reply → Prop)) := s.trunk.replies.filterMap refusalUse

theorem State.replyUses_slots (s : State) : s.replyUses.map Prod.fst = s.replySlotsUsed := by
  simp only [State.replyUses, State.replySlotsUsed, List.map_append, List.map_map, List.map_filterMap]
  congr 2
  funext r
  simp [readyUse, Function.comp_def]

theorem State.refusalUses_slots (s : State) : s.refusalUses.map Prod.fst = s.refusalSlotsUsed := by
  simp only [State.refusalUses, State.refusalSlotsUsed, List.map_filterMap]
  congr 1
  funext r
  simp [refusalUse, Function.comp_def]

/-- The slots are backed by their uses, an extra use of each kind that is on its way among them; a reply on the wire has its
place in the reply class. -/
structure State.SlotsOn (extra : List SlotUse) (s : State) : Prop where
  replies : Backed s.management.slots (extra ++ s.replyUses)
  refusals : Backed s.management.refusals s.refusalUses
  wire : s.onWire = some .reply → s.trunk.replies ≠ []

theorem readyUse_holds {s : State} {r : ProducedReply} {i : ReplySlotId} (source : r.source = .reply i) :
    s.management.holds r = true ↔
      look s.management.slots i = some { tag := r.reply.tag, op := r.reply.op, progress := .replyReady } := by
  simp [Management.holds, source]

theorem refusalUse_holds {s : State} {r : ProducedReply} {i : RefusalSlotId} (source : r.source = .refusal i) :
    s.management.holds r = true ↔ look s.management.refusals i = some r.reply := by
  simp [Management.holds, source]

theorem State.slotsKept_iff {s : State} : s.SlotsKept ↔ s.SlotsOn [] := by
  constructor
  · rintro ⟨distinct, distinctRefusals, used, usedRefusals, queued, awaited, ready, wire⟩
    refine ⟨⟨?_, ?_, fun u mem => ?_⟩, ⟨?_, ?_, fun u mem => ?_⟩, wire⟩
    · rw [List.nil_append, State.replyUses_slots]
      exact distinct
    · rw [List.nil_append, State.replyUses_slots]
      exact used
    · simp only [List.nil_append, State.replyUses, List.mem_append, List.mem_map, List.mem_filterMap] at mem
      rcases mem with (⟨q, mem, rfl⟩ | ⟨r, mem, rfl⟩) | ⟨r, mem, use⟩
      · exact ⟨_, queued q mem, rfl⟩
      · obtain ⟨x, there, content⟩ := Option.map_eq_some_iff.mp (awaited r mem)
        rw [Prod.mk.injEq] at content
        exact ⟨x, there, content⟩
      · cases source : r.source with
        | reply i =>
          simp only [readyUse, source, ReplySource.replySlot?, Option.map_some, Option.some.injEq] at use
          subst use
          exact ⟨_, (readyUse_holds source).mp (ready r mem), rfl⟩
        | refusal i => simp [readyUse, source, ReplySource.replySlot?] at use
    · rw [State.refusalUses_slots]
      exact distinctRefusals
    · rw [State.refusalUses_slots]
      exact usedRefusals
    · simp only [State.refusalUses, List.mem_filterMap] at mem
      obtain ⟨r, mem, use⟩ := mem
      cases source : r.source with
      | refusal i =>
        simp only [refusalUse, source, ReplySource.refusalSlot?, Option.map_some, Option.some.injEq] at use
        subst use
        exact ⟨_, (refusalUse_holds source).mp (ready r mem), rfl⟩
      | reply i => simp [refusalUse, source, ReplySource.refusalSlot?] at use
  · rintro ⟨⟨distinct, used, holds⟩, ⟨distinctRefusals, usedRefusals, holdsRefusals⟩, wire⟩
    rw [List.nil_append] at distinct used holds
    rw [State.replyUses_slots] at distinct used
    rw [State.refusalUses_slots] at distinctRefusals usedRefusals
    refine ⟨distinct, distinctRefusals, used, usedRefusals, fun q mem => ?_, fun r mem => ?_, fun r mem => ?_, wire⟩
    · obtain ⟨x, there, rfl⟩ := holds (queuedUse q) (by
        simp only [State.replyUses, List.mem_append]
        exact .inl (.inl (List.mem_map_of_mem mem)))
      exact there
    · obtain ⟨x, there, tag, progress⟩ := holds (awaitedUse r) (by
        simp only [State.replyUses, List.mem_append]
        exact .inl (.inr (List.mem_map_of_mem mem)))
      rw [show look s.management.slots r.slot = some x from there, Option.map_some, tag, progress]
    · cases source : r.source with
      | reply i =>
        obtain ⟨x, there, rfl⟩ := holds
          (i, (· = { tag := r.reply.tag, op := r.reply.op, progress := .replyReady })) (by
            simp only [State.replyUses, List.mem_append, List.mem_filterMap]
            exact .inr ⟨r, mem, by simp [readyUse, source, ReplySource.replySlot?]⟩)
        exact (readyUse_holds source).mpr there
      | refusal i =>
        obtain ⟨x, there, rfl⟩ := holdsRefusals (i, (· = r.reply)) (by
          simp only [State.refusalUses, List.mem_filterMap]
          exact ⟨r, mem, by simp [refusalUse, source, ReplySource.refusalSlot?]⟩)
        exact (refusalUse_holds source).mpr there

/-! ### What changes the uses -/

section
variable {s t : State} {extra more : List SlotUse}

theorem State.awaitedReplies_same (operation : t.table.operation = s.table.operation)
    (inFlight : t.classifier.inFlight = s.classifier.inFlight) (injection : t.classifier.injection = s.classifier.injection) :
    t.awaitedReplies = s.awaitedReplies := by
  rw [State.awaitedReplies, operation, inFlight, injection, State.awaitedReplies]

/-- The slots are as they were, and so are the uses, in whatever order. -/
theorem State.SlotsOn.of_uses (h : s.SlotsOn extra) (management : t.management.slots = s.management.slots)
    (refusals : t.management.refusals = s.management.refusals) (replies : t.trunk.replies = s.trunk.replies)
    (uses : (extra ++ s.replyUses).Perm (more ++ t.replyUses)) (wire : t.onWire = some .reply → s.onWire = some .reply) :
    t.SlotsOn more where
  replies := management ▸ h.replies.perm uses
  refusals := by
    rw [refusals, State.refusalUses, replies]
    exact h.refusals
  wire sent := replies ▸ h.wire (wire sent)

theorem State.SlotsOn.of_same (h : s.SlotsOn extra) (management : t.management = s.management)
    (awaited : t.awaitedReplies = s.awaitedReplies) (replies : t.trunk.replies = s.trunk.replies)
    (wire : t.onWire = some .reply → s.onWire = some .reply) : t.SlotsOn extra := by
  refine h.of_uses (by rw [management]) (by rw [management]) replies ?_ wire
  rw [State.replyUses, State.replyUses, management, awaited, replies]

/-- The replies that wait for their work, in another order or with one of them out of the awaited ones. -/
theorem State.SlotsOn.of_awaited (h : s.SlotsOn extra) {moved : List PendingReply} (management : t.management = s.management)
    (awaited : s.awaitedReplies.Perm (moved ++ t.awaitedReplies)) (replies : t.trunk.replies = s.trunk.replies)
    (wire : t.onWire = some .reply → s.onWire = some .reply) : t.SlotsOn (moved.map awaitedUse ++ extra) := by
  refine h.of_uses (by rw [management]) (by rw [management]) replies ?_ wire
  have uses := awaited.map awaitedUse
  rw [List.map_append] at uses
  simp only [State.replyUses, management, replies]
  rw [← Multiset.coe_eq_coe] at uses ⊢
  simp only [← Multiset.coe_add] at uses ⊢
  rw [uses]
  abel

/-- A reply is produced for an extra use: the use goes, the slot is REPLY-READY (R142). -/
theorem State.SlotsOn.produceReply {i : ReplySlotId} {p : ReplySlot → Prop} (h : s.SlotsOn ((i, p) :: extra)) (r : Reply) :
    (s.produceReply i r).SlotsOn extra where
  replies := by
    have moved := Backed.move (q := (· = { tag := r.tag, op := r.op, progress := .replyReady }))
      (rest := extra ++ s.replyUses) h.replies rfl
    refine moved.perm ?_
    have uses : (s.produceReply i r).replyUses =
        s.replyUses ++ [(i, (· = { tag := r.tag, op := r.op, progress := .replyReady }))] := by
      show s.management.queue.map queuedUse ++ s.awaitedReplies.map awaitedUse ++ (s.trunk.replies ++ [_]).filterMap readyUse = _
      rw [List.filterMap_append, ← List.append_assoc]
      rfl
    rw [uses, ← List.append_assoc]
    exact (List.perm_append_singleton _ _).symm
  refusals := by
    have uses : (s.produceReply i r).refusalUses = s.refusalUses := by
      simp only [State.refusalUses, State.produceReply, State.setTrunk_trunk, List.filterMap_append]
      exact List.append_nil _
    rw [uses]
    exact h.refusals
  wire _ := by simp [State.produceReply]

/-- The head request leaves the queue, its slot kept in sight. -/
theorem State.SlotsOn.headTaken (h : s.SlotsOn []) {q : QueuedRequest} {rest : List QueuedRequest} (head : s.Head q rest) :
    (s.setManagement { s.management with queue := rest }).SlotsOn [queuedUse q] := by
  refine h.of_uses rfl rfl rfl ?_ id
  rw [List.nil_append, State.replyUses, show s.management.queue = q :: rest from head]
  exact List.Perm.refl _

theorem State.SlotsOn.answered (h : s.SlotsOn []) {q : QueuedRequest} {rest : List QueuedRequest} (head : s.Head q rest)
    (status : Status) (data : List Byte) : (s.answered q rest status data).SlotsOn [] := by
  rw [← State.answer_of_head]
  exact (h.headTaken head).produceReply _

/-- The head request leaves the queue and its work goes on: its slot is AWAITING-COMPLETION, and its reply is awaited (R142). -/
theorem State.SlotsOn.deferred (h : s.SlotsOn []) {q : QueuedRequest} {rest : List QueuedRequest} (head : s.Head q rest)
    (management : t.management = (s.deferred q rest).management)
    (awaited : t.awaitedReplies.Perm (q.later :: s.awaitedReplies)) (replies : t.trunk.replies = s.trunk.replies)
    (wire : t.onWire = some .reply → s.onWire = some .reply) : t.SlotsOn [] where
  replies := by
    have moved := Backed.move (q := (awaitedUse q.later).2)
      (x := { tag := q.tag, op := q.op, progress := .awaitingCompletion })
      (h.headTaken head).replies ⟨rfl, rfl⟩
    rw [management]
    refine moved.perm ?_
    have uses := awaited.map awaitedUse
    rw [List.map_cons] at uses
    simp only [State.replyUses, management, replies, List.nil_append]
    show List.Perm (awaitedUse q.later :: (rest.map queuedUse ++ s.awaitedReplies.map awaitedUse ++ _)) _
    rw [← Multiset.coe_eq_coe] at uses ⊢
    simp only [← Multiset.coe_add, ← Multiset.cons_coe, ← Multiset.singleton_add] at uses ⊢
    rw [State.deferred, uses]
    abel
  refusals := by
    rw [management, State.refusalUses, replies]
    exact h.refusals
  wire sent := replies ▸ h.wire (wire sent)

/-- An awaited reply is produced: the work has ended, and no unit awaits it any more. -/
theorem State.SlotsOn.awaitedProduced (h : s.SlotsOn extra) {u : State} {r : PendingReply} {reply : Reply}
    (management : u.management = s.management) (awaited : s.awaitedReplies.Perm (r :: u.awaitedReplies))
    (replies : u.trunk.replies = s.trunk.replies) (wire : u.onWire = some .reply → s.onWire = some .reply) :
    (u.produceReply r.slot reply).SlotsOn extra :=
  State.SlotsOn.produceReply (p := (awaitedUse r).2) (h.of_awaited (moved := [r]) management awaited replies wire) reply

theorem State.SlotsOn.landSwap (h : s.SlotsOn extra) : s.landSwap.SlotsOn extra := by
  unfold State.landSwap
  split
  · next r pending =>
    split_ifs
    · refine h.awaitedProduced rfl ?_ rfl id
      have waits : s.awaitedReplies = r :: (s.setTable s.table.swapped).awaitedReplies := by
        rw [State.awaitedReplies, pending]
        rfl
      rw [waits]
    · exact h
  · exact h
  · exact h

/-- An abandoned INJECT is answered, its slot in sight until then (R60). -/
theorem State.SlotsOn.answerConflict {r : Option PendingReply} (h : s.SlotsOn (r.toList.map awaitedUse ++ extra)) :
    (s.answerConflict r).SlotsOn extra := by
  cases r with
  | none => exact h
  | some r => exact State.SlotsOn.produceReply (p := (awaitedUse r).2) h _

theorem State.SlotsOn.trafficReset (h : s.SlotsOn extra) : s.trafficReset.SlotsOn extra := by
  have idle : (s.setClassifier Classifier.initial).SlotsOn
      ((s.classifier.inFlight.bind FlightEvent.reply).toList.map awaitedUse ++
        ((s.classifier.injection.map InjectedEvent.reply).toList.map awaitedUse ++ extra)) := by
    rw [← List.append_assoc, ← List.map_append]
    refine h.of_awaited rfl ?_ rfl id
    have waits : (s.setClassifier Classifier.initial).awaitedReplies = s.table.operation.reply.toList := by
      simp [State.awaitedReplies, Classifier.initial]
    rw [waits, State.awaitedReplies, List.append_assoc]
    exact List.perm_append_comm
  have answered := (idle.answerConflict).answerConflict
  refine State.SlotsOn.landSwap (answered.of_same ?_ ?_ ?_ ?_)
  all_goals
    cases s.classifier.inFlight.bind FlightEvent.reply <;> cases s.classifier.injection.map InjectedEvent.reply
  all_goals first | rfl | exact id

/-- The reply of the event in flight is produced as it leaves the Classifier (R58). -/
theorem State.SlotsOn.completeFlight (h : s.SlotsOn []) {f : FlightEvent} (inFlight : s.classifier.inFlight = some f) :
    (s.completeFlight f).SlotsOn [] := by
  have operation : (s.carriedOut f).table.operation = s.table.operation := by simp
  have carried : (s.carriedOut f).SlotsOn [] :=
    h.of_same (by simp) (State.awaitedReplies_same operation (by simp) (by simp)) (by simp) (by simp [State.onWire])
  have waiting : (s.carriedOut f).classifier = s.classifier := by simp
  rw [State.completeFlight_eq]
  refine State.SlotsOn.landSwap ?_
  generalize s.carriedOut f = u at carried waiting
  unfold State.injectReply
  split
  · next none =>
    refine carried.of_same rfl ?_ rfl id
    simp [State.awaitedReplies, waiting, inFlight, none]
  · next r awaits =>
    have leaves : u.awaitedReplies.Perm (r :: (u.setClassifier { s.classifier with inFlight := none }).awaitedReplies) := by
      simp only [State.awaitedReplies, State.setClassifier_table, State.setClassifier_classifier, waiting, inFlight,
        Option.bind_some, awaits, Option.toList_some, Option.bind_none, Option.toList_none, List.append_nil, List.append_assoc,
        List.cons_append, List.nil_append]
      exact List.perm_middle
    have produced := fun reply => carried.awaitedProduced
      (u := u.setClassifier { s.classifier with inFlight := none }) (reply := reply) rfl leaves rfl id
    exact (produced _).of_same rfl rfl rfl id

/-- A request accepted or refused takes a free slot (R140, R141). -/
theorem State.SlotsOn.takeRequest (h : s.SlotsOn []) (tag op : Byte) (operands : List Byte) :
    (s.takeRequest tag op operands).SlotsOn [] := by
  unfold State.takeRequest
  split
  · next slot found =>
    have free : look s.management.slots slot = none := by
      simpa using List.find?_some found
    refine ⟨?_, h.refusals, h.wire⟩
    have added := h.replies.add (q := (queuedUse { slot := slot, tag := tag, op := op, operands := operands }).2) free rfl
    refine added.perm ?_
    have uses : (s.accept slot tag op operands).replyUses =
        (s.management.queue ++ [({ slot := slot, tag := tag, op := op, operands := operands } : QueuedRequest)]).map queuedUse ++
          s.awaitedReplies.map awaitedUse ++ s.trunk.replies.filterMap readyUse := rfl
    rw [uses, List.map_append, List.nil_append, List.nil_append, State.replyUses]
    simp only [List.map_cons, List.map_nil, List.append_assoc, List.cons_append, List.nil_append]
    exact List.perm_middle.symm
  · unfold State.refuse
    split
    · exact h.of_same (by simp) (State.awaitedReplies_same (by simp) (by simp) (by simp)) (by simp) (by simp)
    · next slot found =>
      have free : look s.management.refusals slot = none := by
        simpa using List.find?_some found
      refine ⟨?_, ?_, fun _ => by simp⟩
      · have uses : ∀ r : ProducedReply, r.source = .refusal slot → (s.trunk.replies ++ [r]).filterMap readyUse =
            s.trunk.replies.filterMap readyUse := fun r source => by
          simp [readyUse, source, ReplySource.replySlot?]
        have same := h.replies
        rw [State.replyUses] at same ⊢
        simp only [State.setTrunk_trunk]
        rw [uses _ rfl]
        exact same
      · have added := h.refusals.add
          (q := (· = ({ tag := tag, op := op, status := .queueFull, data := [] } : Reply))) free rfl
        refine added.perm ?_
        rw [State.refusalUses, State.refusalUses]
        simp only [State.setTrunk_trunk, List.filterMap_append]
        exact (List.perm_append_singleton _ _).symm

theorem State.SlotsOn.trunkArrival (h : s.SlotsOn []) (symbols : List Symbol) : (s.trunkArrival symbols).SlotsOn [] :=
  State.trunkArrival_keeps symbols (fun _ _ => h.of_same rfl rfl rfl id) fun u v _ hu =>
    State.trunkVerdict_keeps v hu
      (fun c => hu.of_same (by simp) (State.awaitedReplies_same (by simp) (by simp) (by simp)) (by simp) (by simp))
      (fun l r o _ => hu.of_same (by simp) (State.awaitedReplies_same (by simp) (by simp) (by simp)) (by simp)
        (by simp [State.onWire]))
      (hu.of_same (by simp) (State.awaitedReplies_same (by simp) (by simp) (by simp)) (by simp) (by simp [State.onWire]))
      (fun _ => hu.of_same rfl rfl rfl id) fun tag op operands => hu.takeRequest tag op operands

/-- A sent reply leaves its class, and its slot is free (R143). -/
theorem State.SlotsOn.replySent (h : s.SlotsOn []) (wire : s.onWire = none) : s.replySent.SlotsOn [] := by
  unfold State.replySent
  split
  · exact h
  · next r rest ready =>
    obtain ⟨replies, refusals, -⟩ := h
    rw [List.nil_append, State.replyUses, ready] at replies
    rw [State.refusalUses, ready] at refusals
    cases source : r.source with
    | reply i =>
      have front : ((r :: rest).filterMap readyUse) =
          (i, (· = { tag := r.reply.tag, op := r.reply.op, progress := .replyReady })) :: rest.filterMap readyUse :=
        List.filterMap_cons_some (by simp [readyUse, source, ReplySource.replySlot?])
      rw [front] at replies
      refine ⟨(replies.perm List.perm_middle).remove, ?_, fun sent => ?_⟩
      · rwa [List.filterMap_cons_none (by simp [refusalUse, source, ReplySource.refusalSlot?])] at refusals
      · have sent : s.onWire = some .reply := sent
        rw [wire] at sent
        cases sent
    | refusal i =>
      have front : ((r :: rest).filterMap refusalUse) = (i, (· = r.reply)) :: rest.filterMap refusalUse :=
        List.filterMap_cons_some (by simp [refusalUse, source, ReplySource.refusalSlot?])
      rw [front] at refusals
      refine ⟨?_, refusals.remove, fun sent => ?_⟩
      · rwa [List.filterMap_cons_none (by simp [readyUse, source, ReplySource.replySlot?])] at replies
      · have sent : s.onWire = some .reply := sent
        rw [wire] at sent
        cases sent

theorem State.SlotsOn.grantNotice (h : s.SlotsOn []) : s.grantNotice.SlotsOn [] := by
  unfold State.grantNotice
  split
  · exact h.of_same rfl rfl rfl fun sent => (by cases sent)
  · split
    · exact h.of_same rfl rfl rfl fun sent => (by cases sent)
    · exact h

theorem State.SlotsOn.trunkLive (h : s.SlotsOn []) : s.trunkLive.SlotsOn [] := by
  refine State.trunkLive_keeps h (fun _ _ => h.of_same rfl rfl rfl id) fun _ _ => ?_
  have live : (s.withTrunkRx .hunt).SlotsOn [] := h.of_same rfl rfl rfl id
  have granted : (s.withTrunkRx .hunt).grantRestarted.SlotsOn [] := by
    rcases State.grantRestarted_cases (s.withTrunkRx .hunt) with same | ⟨-, -, granted⟩
    · rw [same]
      exact live
    · rw [granted]
      exact live.grantNotice
  exact granted.of_same (by simp) (State.awaitedReplies_same (by simp) (by simp) (by simp)) (by simp) (by simp)

theorem State.SlotsOn.trunkDead (h : s.SlotsOn []) : s.trunkDead.SlotsOn [] := by
  have touches := s.trunkDown_touches
  have awaited : s.trunkDown.awaitedReplies = s.awaitedReplies :=
    State.awaitedReplies_same (by rw [touches.table (by decide)]) (by rw [touches.classifier (by decide)])
      (by rw [touches.classifier (by decide)])
  have replies : s.trunkDown.trunk.replies = s.trunk.replies := by
    unfold State.trunkDown
    split_ifs <;> simp
  refine State.trunkDead_keeps h (fun _ => h.of_same rfl rfl rfl id) (fun _ _ _ => ?_) fun _ _ g _ => ?_
  · exact h.of_same (touches.management (by decide)) awaited replies (by simp)
  · have aborted : s.trunkDown.wireAborted.SlotsOn [] :=
      h.of_same (touches.management (by decide)) awaited replies fun sent => (by cases sent)
    have returned : ∀ u : State, u.SlotsOn [] → ∀ r, (u.abortReturn r).SlotsOn [] := by
      intro u hu r
      rw [State.abortReturn_frame]
      exact hu.of_same rfl rfl rfl id
    exact State.ownAbort_keeps aborted (fun _ _ => aborted.of_same rfl rfl rfl id)
      (fun _ _ _ _ _ => aborted.of_same rfl rfl rfl id)
      (fun l r _ _ _ => returned (s.trunkDown.wireAborted.setInService l none) (aborted.of_same rfl rfl rfl id) r.record)
      fun _ r _ _ => returned (s.trunkDown.wireAborted.setLevelUnit
        { s.trunkDown.wireAborted.levelUnit with inTransmission := none }) (aborted.of_same rfl rfl rfl id) r

theorem State.slotsOn_initial (management : t.management = Management.initial) (awaited : t.awaitedReplies = [])
    (replies : t.trunk.replies = []) (wire : t.onWire ≠ some .reply) : t.SlotsOn [] := by
  refine ⟨?_, ?_, fun sent => absurd sent wire⟩
  · rw [State.replyUses, awaited, replies, management]
    exact Backed.empty
  · rw [State.refusalUses, replies, management]
    exact Backed.empty

/-- The Classifier is IDLE before a classification starts. -/
theorem State.idle_of_mayClassify (may : s.mayClassify = true) : s.classifier.inFlight = none := by
  simp only [State.mayClassify, Bool.and_eq_true, Option.isNone_iff_eq_none] at may
  exact may.1

theorem State.enableNotices_onWire (enables : BitVec 5) :
    (s.enableNotices enables).onWire = s.onWire.map (GrantedFrame.cancelIfOff enables) := by
  simp [State.onWire, State.enableNotices, TrunkTransmitter.cancelIfOff, Function.comp_def]

/-- The head request is answered after a change that no slot sees. -/
theorem State.SlotsOn.answeredAfter (h : s.SlotsOn []) {q : QueuedRequest} {rest : List QueuedRequest} (head : s.Head q rest)
    (management : t.management = s.management) (awaited : t.awaitedReplies = s.awaitedReplies)
    (replies : t.trunk.replies = s.trunk.replies) (wire : t.onWire = some .reply → s.onWire = some .reply)
    {status : Status} {data : List Byte} : (t.answered q rest status data).SlotsOn [] :=
  (h.of_same management awaited replies wire).answered (by rw [State.Head, management]; exact head) status data

theorem State.SlotsOn.effect (h : s.SlotsOn []) (d : Effect s t) : t.SlotsOn [] := by
  cases d
  case nothing => exact h
  case trunkSymbols symbols => exact h.trunkArrival symbols
  case portEventStarts p e rest may waiting =>
    refine h.of_same (by simp) ?_ (by simp) (by simp [State.onWire])
    simp [State.awaitedReplies, State.idle_of_mayClassify may, State.flight]
  case injectionStarts i r may waiting =>
    refine h.of_same (by simp) ?_ (by simp) (by simp [State.onWire])
    simp [State.awaitedReplies, State.idle_of_mayClassify may, State.flight, waiting]
  case classificationEnds f inFlight => exact h.completeFlight inFlight
  case swapLands => exact h.landSwap
  case copySteps progress r copying =>
    refine h.of_same (by simp) ?_ (by simp) (by simp [State.onWire])
    simp [State.awaitedReplies, copying, BankOperation.reply]
  case copyEnds r copying =>
    refine h.awaitedProduced rfl ?_ rfl id
    simp [State.awaitedReplies, copying, BankOperation.reply]
  case replyGranted r rest free ready =>
    have granted : (s.send .reply (replyFrame r.reply)).trunk.replies ≠ [] := by simp [State.send, ready]
    exact ⟨h.replies, h.refusals, fun _ => granted⟩
  case noticeGranted free => exact h.grantNotice
  case resendGranted l r may found waits => exact h.of_same rfl rfl rfl fun sent => (by cases sent)
  case postedGranted l r rest may head posted => exact h.of_same rfl rfl rfl fun sent => (by cases sent)
  case heldGranted l r rest may head held free => exact h.of_same rfl rfl rfl fun sent => (by cases sent)
  case replyEnds wire =>
    have sent : s.trunkSent.SlotsOn [] := h.of_same rfl rfl rfl fun sent => (by cases sent)
    exact sent.replySent rfl
  case noticeEnds f cancelled wire => exact h.of_same rfl rfl rfl fun sent => (by cases sent)
  case postedEnds l wire =>
    exact h.of_same (by simp) (State.awaitedReplies_same (by simp) (by simp) (by simp)) (by simp [State.trunkSent])
      (by simp [State.onWire, State.trunkSent])
  case heldEnds l ticket wire =>
    exact h.of_same (by simp) (State.awaitedReplies_same (by simp) (by simp) (by simp)) (by simp [State.trunkSent])
      (by simp [State.onWire, State.trunkSent])
  case resendEnds l ticket wire =>
    exact h.of_same (by simp) (State.awaitedReplies_same (by simp) (by simp) (by simp)) (by simp [State.trunkSent])
      (by simp [State.onWire, State.trunkSent])
  case answered q rest status data head => exact h.answered head status data
  case itemRead q rest data id item clear head =>
    exact h.answeredAfter head (by simp) (State.awaitedReplies_same (by simp [TableStore.readClear_parts]) (by simp) (by simp))
      (by simp) (by simp [State.onWire])
  case copyStarts q rest head idle =>
    refine h.deferred head (by simp [State.deferred]) ?_ (by simp) (by simp [State.onWire])
    simp [State.awaitedReplies, idle, BankOperation.reply]
  case swapAsked q rest head idle =>
    refine State.SlotsOn.landSwap (h.deferred head (by simp [State.deferred]) ?_ (by simp) (by simp [State.onWire]))
    simp [State.awaitedReplies, idle, BankOperation.reply]
  case injected q rest e head free length legal =>
    refine h.deferred head (by simp [State.deferred]) ?_ (by simp) (by simp [State.onWire])
    simp only [State.awaitedReplies, State.deferred_parts, State.setClassifier_table, State.setClassifier_classifier, free,
      Option.map_some, Option.map_none, Option.toList_some, Option.toList_none, List.append_nil]
    exact List.perm_append_singleton _ _
  case noticesSet q rest data enables head =>
    refine h.answeredAfter head (by simp) (State.awaitedReplies_same (by simp) (by simp) (by simp))
      (by simp [State.enableNotices]) fun sent => ?_
    rw [State.enableNotices_onWire] at sent
    obtain ⟨g, on, cancelled⟩ := Option.map_eq_some_iff.mp sent
    cases g with
    | reply => exact on
    | notice frame off => cases cancelled
    | resend l ticket => cases cancelled
    | dispatch l ticket => cases cancelled
  case entrySet | defaultSet | countsCleared | levelSet | orderSet | maskSet | flushed | poolRead | portRead | portSet |
      trunkRead | conditionsSet =>
    exact h.answeredAfter ‹s.Head _ _› (by simp) (State.awaitedReplies_same (by simp) (by simp) (by simp)) (by simp)
      (by simp [State.onWire])
  case trafficReset q rest head => exact State.SlotsOn.produceReply (h.headTaken head).trafficReset _
  case fullReset q rest head =>
    exact State.slotsOn_initial rfl rfl rfl (by simp [State.fullReset, State.onWire, TrunkPort.full])
  all_goals
    exact h.of_same (by simp) (State.awaitedReplies_same (by simp) (by simp) (by simp)) (by simp) (by simp [State.onWire])

theorem State.SlotsOn.transition (h : s.SlotsOn []) (d : Transition s t) : t.SlotsOn [] := by
  cases d with
  | waits => exact h
  | resetFalls => exact h.of_same rfl rfl rfl fun sent => by simp [State.onWire] at sent
  | resetReleased lines =>
    have initial : (State.initialised lines s.pending).SlotsOn [] :=
      State.slotsOn_initial rfl rfl rfl (by simp [State.initialised, State.onWire, TrunkPort.initial])
    rcases State.grantRestarted_cases (State.initialised lines s.pending) with same | ⟨-, -, granted⟩
    · rw [State.released, same]
      exact initial
    · rw [State.released, granted]
      exact initial.grantNotice
  | fieldLive p =>
    exact h.of_same (by simp) (State.awaitedReplies_same (by simp) (by simp) (by simp)) (by simp) (by simp [State.onWire])
  | fieldDead p =>
    exact h.of_same (by simp) (State.awaitedReplies_same (by simp) (by simp) (by simp)) (by simp) (by simp [State.onWire])
  | trunkLive => exact h.trunkLive
  | trunkDead => exact h.trunkDead
  | runs _ effect => exact h.effect effect

end

end Sys2Proof.Machine
end

section
/-!
A pin reset's RESTARTED notice, step by step: while it is latched nothing goes ahead of it (R136, R153, R156).
-/

namespace Sys2Proof.Machine

/-- What holds while a pin reset's RESTARTED notice is latched. -/
structure State.Waits (s : State) : Prop where
  down : s.resetHeld = false → s.linkUp = false
  wire : s.trunk.tx.sending = none
  returned : s.notices.returned = none
  nseq : s.notices.nseq = 0
  queue : s.management.queue = []
  replies : s.trunk.replies = []
  awaited : s.awaitedReplies = []

theorem State.restartedGoesFirst_iff {s : State} : s.RestartedGoesFirst ↔ (s.notices.powerWaits = true → s.Waits) := by
  constructor
  · intro h latched
    obtain ⟨down, wire, returned, nseq, queue, replies, awaited⟩ := h latched
    exact ⟨down, wire, returned, nseq, queue, replies, awaited⟩
  · intro h latched
    obtain ⟨down, wire, returned, nseq, queue, replies, awaited⟩ := h latched
    exact ⟨down, wire, returned, nseq, queue, replies, awaited⟩

section
variable {s t : State}

theorem NoticeUnit.powerWaits_same {n m : NoticeUnit} (same : m.restarted = n.restarted) : m.powerWaits = n.powerWaits := by
  rw [NoticeUnit.powerWaits, same, NoticeUnit.powerWaits]

theorem State.Causes.powerWaits (causes : s.Causes t) : t.notices.powerWaits = s.notices.powerWaits :=
  NoticeUnit.powerWaits_same causes.restarted

/-- A grant does not latch RESTARTED. -/
theorem State.grantNotice_powerWaits (latched : s.grantNotice.notices.powerWaits = true) : s.notices.powerWaits = true := by
  unfold State.grantNotice at latched
  split at latched
  · exact latched
  · split at latched
    · next kind _ =>
      cases kind with
      | restarted => cases latched
      | port | level | lapse | pool | trunk => exact latched
    · exact latched

/-- A pin reset's RESTARTED that can be granted is granted, and so is latched no longer (R156). -/
theorem State.grantRestarted_latched (latched : s.grantRestarted.notices.powerWaits = true)
    (returned : s.notices.powerWaits = true → s.notices.returned = none) : s.grantRestarted = s ∧ s.trunkFree = false := by
  cases waits : s.notices.powerWaits with
  | false =>
    rw [State.grantRestarted_of_none (.inr waits), waits] at latched
    cases latched
  | true =>
    cases free : s.trunkFree with
    | false => exact ⟨State.grantRestarted_of_none (.inl free), rfl⟩
    | true =>
      cases restarted : s.notices.restarted with
      | none => simp [NoticeUnit.powerWaits, restarted] at waits
      | some x =>
        rw [State.grantRestarted_of_waiting free waits, State.grantNotice_restarted (returned waits) restarted] at latched
        cases latched

/-! ### While RESTARTED waits -/

section
variable (h : s.Waits)
include h

theorem State.Waits.no_head {q : QueuedRequest} {rest : List QueuedRequest} (head : s.Head q rest) : False := by
  rw [State.Head, h.queue] at head
  cases head

theorem State.Waits.not_free (running : s.Running) : s.trunkFree = false := by
  simp [State.trunkFree, h.down running]

theorem State.Waits.no_wire {g : GrantedFrame} (wire : s.onWire = some g) : False := by
  rw [State.onWire, h.wire] at wire
  cases wire

theorem State.Waits.idle : s.table.operation = .idle ∧ s.classifier.inFlight.bind FlightEvent.reply = none ∧
    s.classifier.injection = none := by
  have none := h.awaited
  simp only [State.awaitedReplies, List.append_eq_nil_iff, Option.toList_eq_nil_iff, Option.map_eq_none_iff] at none
  obtain ⟨⟨operation, reply⟩, injection⟩ := none
  refine ⟨?_, reply, injection⟩
  cases operation : s.table.operation with
  | idle => rfl
  | copying progress r => simp_all [BankOperation.reply]
  | swapPending r => simp_all [BankOperation.reply]

/-- Nothing that RESTARTED waits behind has changed. -/
theorem State.Waits.of_same (causes : s.Causes t) (down : t.resetHeld = false → t.linkUp = false)
    (wire : t.trunk.tx.sending = s.trunk.tx.sending) (queue : t.management.queue = s.management.queue)
    (replies : t.trunk.replies = s.trunk.replies) (awaited : t.awaitedReplies = s.awaitedReplies) : t.Waits where
  down := down
  wire := wire.trans h.wire
  returned := causes.returned.trans h.returned
  nseq := causes.nseq.trans h.nseq
  queue := queue.trans h.queue
  replies := replies.trans h.replies
  awaited := awaited.trans h.awaited

theorem State.Waits.dead (running : s.Running) : s.trunk.rx = .dead := Receiver.live_eq_false_iff.mp (h.down running)

theorem State.Waits.landSwap : s.landSwap = s := by
  rw [State.landSwap, h.idle.1]

theorem State.Waits.completeFlight {f : FlightEvent} (inFlight : s.classifier.inFlight = some f) : (s.completeFlight f).Waits := by
  obtain ⟨operation, reply, injection⟩ := h.idle
  rw [inFlight, Option.bind_some] at reply
  have landed : ((s.carriedOut f).setClassifier { s.classifier with inFlight := none }).landSwap =
      (s.carriedOut f).setClassifier { s.classifier with inFlight := none } := by
    simp [State.landSwap, operation]
  have carried := s.carriedOut_causes f
  rw [State.completeFlight_eq, State.injectReply, reply, landed]
  refine h.of_same carried (by simpa [State.linkUp] using h.down) (by simp) (by simp) (by simp) ?_
  simp [State.awaitedReplies, operation, injection, inFlight, reply]

theorem State.Waits.effect (running : s.Running) (d : Effect s t) : t.Waits := by
  have free := h.not_free running
  have down := h.down running
  obtain ⟨operation, -, injection⟩ := h.idle
  cases d
  case nothing => exact h
  case fieldSymbols p symbols =>
    exact h.of_same (s.fieldArrival_causes p symbols) (by simpa [State.linkUp] using h.down) (by simp) (by simp) (by simp)
      (State.awaitedReplies_same (by simp) (by simp) (by simp))
  case trunkSymbols symbols =>
    have quiet : s.trunkArrival symbols = s.withTrunkRx .dead := by
      rw [State.trunkArrival, h.dead running, Receiver.run_dead]
      rfl
    rw [quiet]
    exact h.of_same (.refl s) (fun _ => rfl) rfl rfl rfl rfl
  case pauseEnds =>
    exact h.of_same (State.causes_of_same (by simp)) (by simpa [State.linkUp] using h.down) (by simp) (by simp) (by simp)
      (State.awaitedReplies_same (by simp) (by simp) (by simp))
  case portEventStarts p e rest may waiting =>
    refine h.of_same (State.causes_of_same (by simp)) (by simpa [State.linkUp] using h.down) (by simp) (by simp) (by simp) ?_
    simp [State.awaitedReplies, State.idle_of_mayClassify may, State.flight]
  case classificationEnds f inFlight => exact h.completeFlight inFlight
  case swapLands =>
    rw [h.landSwap]
    exact h
  case releaseStarts p q rest waiting may =>
    exact h.of_same (.refl s) h.down rfl rfl rfl rfl
  case releaseEnds p => exact h.of_same (.refl s) h.down rfl rfl rfl rfl
  case timerResends l r units found timed remain => exact h.of_same (.refl s) h.down rfl rfl rfl rfl
  case timerLapses l r inService =>
    exact h.of_same ((causes_levelsUnread s).retire (.refl s) l r .lapsed) (by simpa [State.linkUp] using h.down) (by simp)
      (by simp) (by simp) (State.awaitedReplies_same (by simp) (by simp) (by simp))
  case injectionStarts i r may waiting => simp [injection] at waiting
  case copySteps progress r copying => simp [operation] at copying
  case copyEnds r copying => simp [operation] at copying
  case replyGranted | noticeGranted => simp_all
  case resendGranted l r may found waits => simp [State.trunkFree_of_grantable may] at free
  case postedGranted l r rest may head posted => simp [State.trunkFree_of_grantable may] at free
  case heldGranted l r rest may head held isFree => simp [State.trunkFree_of_grantable may] at free
  case replyEnds | noticeEnds | postedEnds | heldEnds | resendEnds => exact (h.no_wire ‹_›).elim
  all_goals exact (h.no_head ‹s.Head _ _›).elim

end

/-- No effect latches a pin reset's RESTARTED. -/
theorem Effect.powerWaits (d : Effect s t) (latched : t.notices.powerWaits = true) : s.notices.powerWaits = true := by
  cases d
  case fieldSymbols p symbols => exact (s.fieldArrival_causes p symbols).powerWaits ▸ latched
  case trunkSymbols symbols => exact (s.trunkArrival_causes symbols).powerWaits ▸ latched
  case classificationEnds f inFlight =>
    rw [← (s.carriedOut_causes f).powerWaits]
    simpa using latched
  case noticeGranted => exact State.grantNotice_powerWaits latched
  case timerLapses l r inService =>
    exact State.Causes.powerWaits ((causes_levelsUnread s).retire (.refl s) l r .lapsed) ▸ latched
  case flushed q rest data l head =>
    rw [← State.Causes.powerWaits ((causes_levelsUnread s).flush (.refl s) l)]
    simpa using latched
  case noticesSet q rest data enables head => simpa [State.enableNotices, NoticeUnit.withEnables, NoticeUnit.powerWaits] using latched
  case trafficReset q rest head => simpa [State.answer] using latched
  case fullReset q rest head => cases latched
  all_goals simpa using latched

/-! ### Every transition -/

theorem State.trunkLive_waits (h : s.notices.powerWaits = true → s.Waits) (latched : s.trunkLive.notices.powerWaits = true) :
    s.trunkLive.Waits := by
  revert latched
  refine State.trunkLive_keeps (P := fun u => u.notices.powerWaits = true → u.Waits) h (fun held _ latched => ?_)
    fun running dead latched => ?_
  · have kept := h latched
    refine kept.of_same (.refl s) (fun running => ?_) rfl rfl rfl rfl
    rw [show s.resetHeld = false from running] at held
    cases held
  · have live : (s.withTrunkRx .hunt).linkUp = true := rfl
    rw [(State.raiseTrunk_causes _ _).powerWaits] at latched
    obtain ⟨same, busy⟩ := State.grantRestarted_latched latched fun waits => (h waits).returned
    rw [same] at latched
    have silent : (s.withTrunkRx .hunt).trunk.tx.sending = none := (h latched).wire
    rw [State.trunkFree, live, silent] at busy
    cases busy

theorem State.trunkDead_waits (h : s.notices.powerWaits = true → s.Waits) (latched : s.trunkDead.notices.powerWaits = true) :
    s.trunkDead.Waits := by
  by_cases dead : s.trunk.rx = .dead
  · rw [State.trunkDead_of_dead dead] at latched ⊢
    exact h latched
  · cases held : s.resetHeld with
    | true =>
      rw [State.trunkDead_of_held held] at latched ⊢
      exact (h latched).of_same (.refl s) (fun _ => rfl) rfl rfl rfl rfl
    | false =>
      have before : s.notices.powerWaits = true := by
        have same : s.trunkDead.notices.powerWaits = s.notices.powerWaits := by
          refine State.trunkDead_keeps (P := fun u => u.notices.powerWaits = s.notices.powerWaits) rfl (fun _ => rfl)
            (fun _ _ _ => s.trunkDown_causes.powerWaits) fun _ _ g _ => ?_
          have aborted : s.Causes s.trunkDown.wireAborted := s.trunkDown_causes
          exact State.ownAbort_keeps (P := fun u => u.notices.powerWaits = s.notices.powerWaits) aborted.powerWaits
            (fun _ _ => aborted.powerWaits) (fun _ _ _ _ _ => aborted.powerWaits)
            (fun l r _ _ _ => State.Causes.powerWaits ((causes_levelsUnread s).abortReturn
              (s := s.trunkDown.wireAborted.setInService l none) aborted r.record))
            fun _ r _ _ => State.Causes.powerWaits ((causes_levelsUnread s).abortReturn
              (s := s.trunkDown.wireAborted.setLevelUnit { s.trunkDown.wireAborted.levelUnit with inTransmission := none })
              aborted r)
        rw [← same]
        exact latched
      exact absurd ((h before).dead held) dead

theorem State.waits_transition (h : s.notices.powerWaits = true → s.Waits) (d : Transition s t)
    (latched : t.notices.powerWaits = true) : t.Waits := by
  cases d with
  | waits => exact h latched
  | resetFalls =>
    have kept := h latched
    refine ⟨fun low => (by cases low), by simp, kept.returned, kept.nseq, kept.queue, kept.replies, kept.awaited⟩
  | resetReleased lines =>
    obtain ⟨same, busy⟩ := State.grantRestarted_latched latched fun _ => rfl
    have initial : (State.initialised lines s.pending).Waits := by
      refine ⟨fun _ => ?_, rfl, rfl, rfl, rfl, rfl, rfl⟩
      simpa [State.trunkFree, State.initialised, TrunkPort.initial] using busy
    rw [State.released, same]
    exact initial
  | fieldLive p =>
    have causes := s.fieldLive_causes p
    have kept := h (causes.powerWaits ▸ latched)
    exact kept.of_same causes (by simpa [State.linkUp] using kept.down) (by simp) (by simp) (by simp)
      (State.awaitedReplies_same (by simp) (by simp) (by simp))
  | fieldDead p =>
    have causes := s.fieldDead_causes p
    have kept := h (causes.powerWaits ▸ latched)
    exact kept.of_same causes (by simpa [State.linkUp] using kept.down) (by simp) (by simp) (by simp)
      (State.awaitedReplies_same (by simp) (by simp) (by simp))
  | trunkLive => exact State.trunkLive_waits h latched
  | trunkDead => exact State.trunkDead_waits h latched
  | runs running effect => exact (h (effect.powerWaits latched)).effect running effect

end

/-- Settles O60: the trunk and its notices, the slots with their uses, and the RESTARTED notice that nothing goes ahead of. -/
theorem everyStepKeepsTrunkAndSlots : Obligations.EveryStepKeepsTrunkAndSlots := by
  refine ⟨?_, ?_, ?_⟩
  · refine step_keeps (fun _ _ h => h) fun s t h d => ?_
    rw [State.trunkKept_iff] at h ⊢
    obtain ⟨up, wire, notices⟩ := h
    obtain ⟨up, wire, notices⟩ := State.TrunkOk.transition ⟨up, wire, notices⟩ d
    exact ⟨up, wire, notices⟩
  · refine step_keeps (fun _ _ h => h) fun s t h d => ?_
    rw [State.slotsKept_iff] at h ⊢
    exact h.transition d
  · refine step_keeps (fun _ _ h => h) fun s t h d => ?_
    rw [State.restartedGoesFirst_iff] at h ⊢
    exact State.waits_transition h d

/-! ### The reset state -/

/-- Settles O5: on lines that show no signal a release grants nothing, and an initial state is within every bound. -/
theorem resetStateIsThePinResetState : Obligations.ResetStateIsThePinResetState := by
  have released : State.reset = State.released { fields := Vector.replicate 6 false, trunk := false } [] := by
    rw [State.released, State.grantRestarted_of_none (.inl rfl)]
    decide
  have ports : State.reset.PortsKept := released ▸ State.released_portsKept _ _
  have slots : State.reset.SlotsOn [] := State.slotsOn_initial rfl rfl rfl (by decide)
  have trunk : State.reset.TrunkOk := State.trunkOk_initial rfl rfl
  refine ⟨?_, ports, State.definitionsLegal_iff.mpr TableStore.initial_legal, State.initial_tableKept rfl rfl,
    State.levelsKept_initial rfl, ?_, ?_, ?_, State.serviceKept_iff.mpr (State.serviceOn_initial rfl rfl),
    State.trunkKept_iff.mpr ⟨trunk.up, trunk.wire, trunk.notices⟩, State.slotsKept_iff.mpr slots, ?_⟩
  · decide
  · exact State.recordsKept_iff.mpr ⟨State.levelRecordsKept_initial rfl rfl,
      State.eventsKept_of_empty (fun p => by simp [State.reset, FieldPort.initial]) rfl⟩
  · exact State.poolKept_iff.mpr ⟨State.poolCounts_initial rfl rfl, State.postedOnWire_of_none rfl⟩
  · exact State.noHeldTwice_iff.mpr (State.heldOnce_initial rfl rfl)
  · exact State.restartedGoesFirst_iff.mpr fun _ => ⟨fun _ => rfl, rfl, rfl, rfl, rfl, rfl, rfl⟩

end Sys2Proof.Machine
end

section
/-!
Whole frames and bad frames as the field ports and the supervisor take them: what a receiver in HUNT, in a frame or DEAD makes of
them (R3, R4), which verdict a frame with illegal fields earns (R7 to R9), and where a valid one goes (R14, R15, R125 to R128).
-/

namespace Sys2Proof.Machine

/-! ### A run of symbols on a field line (R3, R14) -/

section
variable {s : State} {p : PortId}

/-- A run of symbols that takes the receiver from HUNT to HUNT meets the state with its verdict alone. -/
theorem State.fieldArrival_of_hunt (hunt : (look s.ports p).rx = .hunt) {symbols : List Symbol} {v : Verdict}
    (taken : Receiver.run .field .hunt symbols = (.hunt, [v])) : s.fieldArrival p symbols = s.portVerdict p v := by
  have ran : (look s.ports p).rx.run .field symbols = ((look s.ports p).rx, [v]) := by rw [hunt, taken]
  rw [State.fieldArrival, ran]
  exact congrArg (State.portVerdict · p v) (State.setPort_self s p)

theorem State.fieldArrival_of_dead (dead : (look s.ports p).rx = .dead) (symbols : List Symbol) :
    s.fieldArrival p symbols = s := by
  have ran : (look s.ports p).rx.run .field symbols = ((look s.ports p).rx, []) := by rw [dead, Receiver.run_dead]
  rw [State.fieldArrival, ran]
  exact State.setPort_self s p

/-- A start marker inside a frame ends that frame with FRAMING and begins the next one as from HUNT. -/
theorem State.fieldArrival_of_inFrame {frame : RxFrame} (inFrame : (look s.ports p).rx = .inFrame frame)
    (symbols : List Symbol) :
    s.fieldArrival p (.start :: symbols) =
      ((s.withPortRx p .hunt).portVerdict p .framing).fieldArrival p (.start :: symbols) := by
  rw [State.fieldArrival_cons, State.fieldArrival_cons, State.fieldSymbol_eq, State.fieldSymbol_eq, inFrame,
    State.portVerdict_withPortRx, State.withPortRx_look]
  exact congrArg (State.fieldArrival · p symbols)
    (State.withPortRx_withPortRx (s.portVerdict p .framing) p .hunt (.inFrame RxFrame.empty)).symm

end

/-! ### A run of symbols on the trunk (R3, R125) -/

section
variable {s : State}

theorem State.trunkArrival_of_hunt (hunt : s.trunk.rx = .hunt) {symbols : List Symbol} {v : Verdict}
    (taken : Receiver.run .trunk .hunt symbols = (.hunt, [v])) : s.trunkArrival symbols = s.trunkVerdict v := by
  have ran : s.trunk.rx.run .trunk symbols = (s.trunk.rx, [v]) := by rw [hunt, taken]
  rw [State.trunkArrival, ran]
  rfl

theorem State.trunkArrival_of_dead (dead : s.trunk.rx = .dead) (symbols : List Symbol) : s.trunkArrival symbols = s := by
  have ran : s.trunk.rx.run .trunk symbols = (s.trunk.rx, []) := by rw [dead, Receiver.run_dead]
  rw [State.trunkArrival, ran]
  rfl

theorem State.trunkArrival_of_inFrame {frame : RxFrame} (inFrame : s.trunk.rx = .inFrame frame) (symbols : List Symbol) :
    s.trunkArrival (.start :: symbols) =
      ((s.withTrunkRx .hunt).raiseTrunk .framing).trunkArrival (.start :: symbols) := by
  rw [State.trunkArrival_cons, State.trunkArrival_cons, State.trunkSymbol_eq, State.trunkSymbol_eq, inFrame,
    State.raiseTrunk_withTrunkRx, State.withTrunkRx_trunk]
  rfl

end

/-! ### Bad frames (R3, R4) -/

theorem Receiver.run_ended (k : LinkKind) (bytes : List Byte) :
    Receiver.run k .hunt (.start :: (bytes.map .data ++ [.endMarker])) = (.hunt, [frameVerdict k (gathered k bytes)]) := by
  rw [Receiver.run_hunt]
  rfl

theorem Receiver.run_aborted (k : LinkKind) (bytes : List Byte) :
    Receiver.run k .hunt (.start :: (bytes.map .data ++ [.abort])) = (.hunt, [.framing]) := by
  rw [Receiver.run_hunt]
  rfl

theorem Receiver.run_violated (k : LinkKind) (bytes : List Byte) :
    Receiver.run k .hunt (.start :: (bytes.map .data ++ [.violation])) = (.hunt, [.framing]) := by
  rw [Receiver.run_hunt]
  rfl

/-- Settles O15: a run of symbols is a step of the receiver per symbol, and each of the three ends of a frame takes the receiver
back to HUNT with one verdict. -/
theorem badFramesAreTakenSymbolBySymbol : Obligations.BadFramesAreTakenSymbolBySymbol := by
  unfold Obligations.BadFramesAreTakenSymbolBySymbol
  refine ⟨fun p s running => ⟨?fieldNone, fun x xs => exec_badFrame_cons running p x xs, fun bytes hunt => ?fieldFrame⟩,
    fun s running => ⟨?trunkNone, fun x xs => exec_badTrunkFrame_cons running x xs, fun bytes hunt => ?trunkFrame⟩⟩
  case fieldNone =>
    rw [exec_badFrame_running running]
    exact congrArg Host.Outcome.next (State.setPort_self s p)
  case fieldFrame =>
    have taken {symbols : List Symbol} {v : Verdict} (ran : Receiver.run .field .hunt symbols = (.hunt, [v])) :
        exec (.badFrame p symbols) s = .next (s.portVerdict p v) := by
      rw [exec_badFrame_running running, State.fieldArrival_of_hunt hunt ran]
    exact ⟨taken (Receiver.run_ended .field bytes), taken (Receiver.run_aborted .field bytes),
      taken (Receiver.run_violated .field bytes)⟩
  case trunkNone =>
    rw [exec_badTrunkFrame_running running]
    rfl
  case trunkFrame =>
    have taken {symbols : List Symbol} {v : Verdict} (ran : Receiver.run .trunk .hunt symbols = (.hunt, [v])) :
        exec (.badTrunkFrame symbols) s = .next (s.trunkVerdict v) := by
      rw [exec_badTrunkFrame_running running, State.trunkArrival_of_hunt hunt ran]
    exact ⟨taken (Receiver.run_ended .trunk bytes), taken (Receiver.run_aborted .trunk bytes),
      taken (Receiver.run_violated .trunk bytes)⟩

/-! ### Frames with illegal fields (R7 to R9) -/

/-- A frame of an accepted kind whose check is right is FORMAT when its length is illegal or, its length being legal, a value. -/
theorem frameVerdict_eq_format {k : LinkKind} {kind : Byte} {body : List Byte} (accepted : kind ∈ acceptedKinds k)
    (unfit : lengthOk kind ((closeFrame (kind :: body)).take (storeLimit k)) (body.length + 3) = true →
      valuesOk kind ((closeFrame (kind :: body)).take (storeLimit k)) = false) :
    frameVerdict k (gathered k (closeFrame (kind :: body))) = .format := by
  rw [gathered, frameVerdict_closeFrame, if_neg (not_not_intro accepted)]
  split_ifs with length values
  · rfl
  · rfl
  · exact absurd (unfit (Bool.not_eq_false _ ▸ length)) values

/-- A length byte says a length up to its maximum only when it is that length. -/
theorem length_le_of_byteOf {n limit : Nat} (legal : (byteOf n).toNat ≤ limit) (agrees : n = (byteOf n).toNat) : n ≤ limit :=
  agrees ▸ legal

theorem frameVerdict_event_format (node : Byte) (code : Half) {cond : BitVec 2} (spare : BitVec 2) (seq : BitVec 4)
    {payload : List Byte} (illegal : cond = 3 ∨ 8 < payload.length) :
    frameVerdict .field (gathered .field (closeFrame (eventBody node code cond spare seq payload))) = .format := by
  refine frameVerdict_eq_format (kind := kindEvent) (body := [node] ++ numberBytes code ++
    [cond ++ spare ++ seq, byteOf payload.length] ++ payload) (by decide) fun length => ?_
  have fits : payload.length ≤ 8 := by
    simp [lengthOk, fixedPart, lengthField, lengthMaximum, closeFrame, numberBytes, storeLimit] at length
    omega
  have isThree : cond = 3 := illegal.resolve_right (by omega)
  simp [valuesOk, closeFrame, numberBytes, storeLimit, condBits_byte, condOfBits_isSome, isThree]

theorem frameVerdict_request_format (tag op : Byte) {operands : List Byte} (long : 24 < operands.length) :
    frameVerdict .trunk (gathered .trunk (closeFrame (requestBody tag op operands))) = .format := by
  refine frameVerdict_eq_format (kind := kindRequest) (body := [tag, op, byteOf operands.length] ++ operands) (by decide)
    fun length => absurd length ?_
  simp [lengthOk, fixedPart, lengthField, lengthMaximum, closeFrame, storeLimit, kindRequest, kindEvent]
  omega

theorem frameVerdict_complete_format {ticket outcome : Byte} (illegal : ticket = 0 ∨ (outcome ≠ 1 ∧ outcome ≠ 2)) :
    frameVerdict .trunk (gathered .trunk (closeFrame (completeBody ticket outcome))) = .format := by
  refine frameVerdict_eq_format (kind := kindComplete) (body := [ticket, outcome]) (by decide) fun _ => ?_
  rcases illegal with rfl | ⟨notOne, notTwo⟩
  · rfl
  · rw [valuesOk, if_neg (by decide), if_pos rfl]
    simp only [closeFrame, storeLimit, List.cons_append, List.take_succ_cons, List.getD_cons_succ, List.getD_cons_zero,
      completionOutcome_isSome, notOne, notTwo, or_self, decide_false, Bool.and_false]

theorem frameVerdict_completeTop_format {outcome : Byte} (notOne : outcome ≠ 1) (notTwo : outcome ≠ 2) :
    frameVerdict .trunk (gathered .trunk (closeFrame (completeTopBody outcome))) = .format := by
  refine frameVerdict_eq_format (kind := kindCompleteTop) (body := [outcome]) (by decide) fun _ => ?_
  rw [valuesOk, if_neg (by decide), if_neg (by decide), if_pos rfl]
  simp only [closeFrame, storeLimit, List.cons_append, List.take_succ_cons, List.getD_cons_succ, List.getD_cons_zero,
    completionOutcome_isSome, notOne, notTwo, or_self, decide_false]

/-! ### EVENT (R14, R15) -/

section
variable {s : State} {p : PortId} {node : Byte} {code : Half} {cond spare : BitVec 2} {seq : BitVec 4} {payload : List Byte}

theorem exec_event_running (running : s.Running) :
    exec (.event p node code cond spare seq payload) s =
      .next (s.fieldArrival p (lineSymbols (closeFrame (eventBody node code cond spare seq payload)))) :=
  whenRunning_running running fun s =>
    s.fieldArrival p (lineSymbols (closeFrame (eventBody node code cond spare seq payload)))

theorem exec_event_of_hunt (running : s.Running) (hunt : (look s.ports p).rx = .hunt) :
    exec (.event p node code cond spare seq payload) s = .next (s.portVerdict p
      (frameVerdict .field (gathered .field (closeFrame (eventBody node code cond spare seq payload))))) := by
  rw [exec_event_running running, State.fieldArrival_of_hunt hunt (Receiver.run_frame .field _), gathered]

theorem exec_event_of_inFrame (running : s.Running) {frame : RxFrame} (inFrame : (look s.ports p).rx = .inFrame frame) :
    exec (.event p node code cond spare seq payload) s = exec (.event p node code cond spare seq payload)
      ((s.setPort p { look s.ports p with rx := .hunt }).portVerdict p .framing) := by
  have running' : ((s.withPortRx p .hunt).portVerdict p .framing).Running :=
    ((portVerdict_touches _ p .framing).resetHeld (by decide)).trans running
  calc exec (.event p node code cond spare seq payload) s
      = .next (s.fieldArrival p (lineSymbols (closeFrame (eventBody node code cond spare seq payload)))) :=
        exec_event_running running
    _ = .next (((s.withPortRx p .hunt).portVerdict p .framing).fieldArrival p
          (lineSymbols (closeFrame (eventBody node code cond spare seq payload)))) :=
        congrArg Host.Outcome.next (State.fieldArrival_of_inFrame inFrame _)
    _ = exec (.event p node code cond spare seq payload) ((s.withPortRx p .hunt).portVerdict p .framing) :=
        (exec_event_running running').symm

/-- The event that a well-formed EVENT frame hands to an enabled port. -/
theorem State.portVerdict_event {c : Cond} (fits : payload.length ≤ 8) (enabled : (look s.ports p).enabled = true) :
    s.portVerdict p (frameVerdict .field (gathered .field (closeFrame (eventBody node code (condCode c) spare seq payload)))) =
      s.receiveEvent p { node := node, code := code, cond := c, seq := seq, payload := payload } := by
  have legal : condCode c ≠ 3 := by cases c <;> decide
  rw [gathered, frameVerdict_event node code spare seq legal fits, State.portVerdict_enabled enabled,
    State.actOnVerdict_valid s p (parseEvent_eventBody node code c spare seq fits)]

end

/-- Settles O14: the frame's verdict is VALID with the event or FORMAT, and the port's setting and the room in its queue do the
rest. -/
theorem eventJoinsTheReceiveQueue : Obligations.EventJoinsTheReceiveQueue := by
  unfold Obligations.EventJoinsTheReceiveQueue
  refine ⟨fun p node code c spare seq payload s running hunt fits =>
      ⟨fun disabled => ?disabled, fun enabled room => ?room, fun enabled full => ?full⟩,
    fun p node code cond spare seq payload s running =>
      ⟨fun dead => ?dead, fun hunt illegal => ?illegal, fun frame inFrame => exec_event_of_inFrame running inFrame⟩⟩
  case disabled => rw [exec_event_of_hunt running hunt, State.portVerdict_disabled disabled]
  case room =>
    rw [exec_event_of_hunt running hunt, State.portVerdict_event fits enabled, State.receiveEvent_of_room room]
    rfl
  case full =>
    rw [exec_event_of_hunt running hunt, State.portVerdict_event fits enabled, State.receiveEvent_of_full full]
  case dead => rw [exec_event_running running, State.fieldArrival_of_dead dead]
  case illegal => rw [exec_event_of_hunt running hunt, frameVerdict_event_format node code spare seq illegal]

/-! ### The supervisor's frames (R125 to R128) -/

/-- The commands that carry a frame of the supervisor. -/
def SupervisorFrame (c : Instr) : Prop :=
  c = .resume ∨ (∃ d, c = .pause d) ∨ (∃ o, c = .completeTop o) ∨ (∃ t o, c = .complete t o) ∨
    ∃ tag op operands, c = .request tag op operands

/-- A supervisor's command is the arrival of its frame's symbols. -/
theorem SupervisorFrame.exec_eq {c : Instr} (frame : SupervisorFrame c) :
    ∃ body, ∀ s : State, s.Running → exec c s = .next (s.trunkArrival (lineSymbols (closeFrame body))) := by
  rcases frame with rfl | ⟨d, rfl⟩ | ⟨o, rfl⟩ | ⟨t, o, rfl⟩ | ⟨tag, op, operands, rfl⟩
  · exact ⟨resumeBody, fun s running => whenRunning_running running fun s => s.supervisorFrame resumeBody⟩
  · exact ⟨pauseBody d, fun s running => whenRunning_running running fun s => s.supervisorFrame (pauseBody d)⟩
  · exact ⟨completeTopBody o, fun s running => whenRunning_running running fun s => s.supervisorFrame (completeTopBody o)⟩
  · exact ⟨completeBody t o, fun s running => whenRunning_running running fun s => s.supervisorFrame (completeBody t o)⟩
  · exact ⟨requestBody tag op operands, fun s running => whenRunning_running running fun s => s.supervisorFrame (requestBody tag op operands)⟩

section
variable {s : State} {c : Instr}

theorem SupervisorFrame.exec_of_dead (sent : SupervisorFrame c) (running : s.Running) (dead : s.trunk.rx = .dead) :
    exec c s = .next s := by
  obtain ⟨body, arrives⟩ := sent.exec_eq
  rw [arrives s running, State.trunkArrival_of_dead dead]

theorem SupervisorFrame.exec_of_inFrame (sent : SupervisorFrame c) (running : s.Running) {frame : RxFrame}
    (inFrame : s.trunk.rx = .inFrame frame) :
    exec c s = exec c ((s.setTrunk { s.trunk with rx := .hunt }).raiseTrunk .framing) := by
  obtain ⟨body, arrives⟩ := sent.exec_eq
  have running' : ((s.withTrunkRx .hunt).raiseTrunk .framing).Running :=
    ((trunkVerdict_touches (s.withTrunkRx .hunt) .framing).resetHeld (by decide)).trans running
  exact (arrives s running).trans ((congrArg Host.Outcome.next (State.trunkArrival_of_inFrame inFrame _)).trans
    (arrives _ running').symm)

theorem exec_complete_format {ticket outcome : Byte} (running : s.Running) (hunt : s.trunk.rx = .hunt)
    (illegal : ticket = 0 ∨ (outcome ≠ 1 ∧ outcome ≠ 2)) :
    exec (.complete ticket outcome) s = .next (s.raiseTrunk .format) := by
  rw [exec, execComplete, whenRunning_running running, State.supervisorFrame_of_hunt hunt,
    frameVerdict_complete_format illegal, State.trunkVerdict]

theorem exec_completeTop_format {outcome : Byte} (running : s.Running) (hunt : s.trunk.rx = .hunt) (notOne : outcome ≠ 1)
    (notTwo : outcome ≠ 2) : exec (.completeTop outcome) s = .next (s.raiseTrunk .format) := by
  rw [exec, execCompleteTop, whenRunning_running running, State.supervisorFrame_of_hunt hunt,
    frameVerdict_completeTop_format notOne notTwo, State.trunkVerdict]

theorem exec_request_format {tag op : Byte} {operands : List Byte} (running : s.Running) (hunt : s.trunk.rx = .hunt)
    (long : 24 < operands.length) : exec (.request tag op operands) s = .next (s.raiseTrunk .format) := by
  rw [exec, execRequest, whenRunning_running running, State.supervisorFrame_of_hunt hunt,
    frameVerdict_request_format tag op long, State.trunkVerdict]

end

/-- Settles O16: a frame with legal fields reaches its unit with them, one without is FORMAT, and the receiver's state decides
what an earlier frame leaves behind. -/
theorem trunkFramesReachTheirUnits : Obligations.TrunkFramesReachTheirUnits := by
  unfold Obligations.TrunkFramesReachTheirUnits
  refine ⟨fun s ticket running hunt named => ⟨?done, ?reject, ?topDone, ?topReject⟩,
    fun s tag op operands running hunt fits => exec_request_of_hunt running hunt fits,
    fun s ticket outcome tag op operands running hunt => ⟨exec_complete_format running hunt,
      exec_completeTop_format running hunt, exec_request_format running hunt⟩,
    fun s c running sent => ⟨SupervisorFrame.exec_of_dead sent running,
      fun frame inFrame => SupervisorFrame.exec_of_inFrame sent running inFrame⟩,
    fun s => ⟨rfl, rfl, rfl, rfl⟩⟩
  case done => rw [exec_complete_of_hunt running hunt named (.inl rfl)]; rfl
  case reject => rw [exec_complete_of_hunt running hunt named (.inr rfl)]; rfl
  case topDone => rw [exec_completeTop_of_hunt running hunt (.inl rfl)]; rfl
  case topReject => rw [exec_completeTop_of_hunt running hunt (.inr rfl)]; rfl

/-! ### PAUSE and RESUME (R112 to R114) -/

section
variable {s : State}

theorem exec_pause_of_hunt (running : s.Running) (hunt : s.trunk.rx = .hunt) (d : Byte) :
    exec (.pause d) s = .next (s.takePause d) := by
  rw [exec, execPause, whenRunning_running running, State.supervisorFrame_of_hunt hunt, gathered, frameVerdict_pause,
    State.trunkVerdict]
  rfl

theorem exec_resume_of_hunt (running : s.Running) (hunt : s.trunk.rx = .hunt) : exec .resume s = .next s.takeResume := by
  rw [exec, execResume, whenRunning_running running, State.supervisorFrame_of_hunt hunt, gathered, frameVerdict_resume,
    State.trunkVerdict]
  rfl

/-- RESUME leaves alone a trunk that runs already. -/
theorem State.takeResume_of_running (pause : s.trunk.pause = .running) : s.takeResume = s := by
  rw [State.takeResume, ← pause]
  rfl

end

/-- Settles O17: PAUSE sets the pause state by its duration, and RESUME and the timer end it. -/
theorem pauseStateFollowsItsTable : Obligations.PauseStateFollowsItsTable := by
  unfold Obligations.PauseStateFollowsItsTable
  refine ⟨fun s d running hunt => ⟨fun timed => ?paused, fun zero => ?ended, ?resumed⟩, fun s running => ?expired⟩
  case paused =>
    rw [exec_pause_of_hunt running hunt, State.takePause, if_neg timed]
    rfl
  case ended =>
    rw [exec_pause_of_hunt running hunt, State.takePause, if_pos zero]
    rfl
  case resumed =>
    rw [exec_resume_of_hunt running hunt]
    rfl
  case expired =>
    rw [exec, execPauseTimerExpires, whenRunning_running running]
    split
    · rfl
    · next pause => exact congrArg Host.Outcome.next (State.takeResume_of_running pause).symm

end Sys2Proof.Machine
end

section
/-!
A record's way back to its level's queue (R98), the causes that notices report (R151), and the ways a record in service retires:
by a completion (R117, R118), by its timer (R113), and what a retirement does (R120).
-/

namespace Sys2Proof.Machine

/-! ### A record returns to its level's queue (R98) -/

section
variable {s : State} {r : Record}

theorem State.abortReturn_of_room (room : (s.levelAt r.level).queue.length < (s.levelAt r.level).settings.limit.toNat) :
    s.abortReturn r = s.setLevel r.level (Level.raiseHighWater { s.levelAt r.level with
      queue := r :: (s.levelAt r.level).queue }) := by
  rw [State.abortReturn, if_neg (by omega)]

/-- A record that returns to a full queue takes the tail's place, and the tail is dropped. -/
theorem State.abortReturn_of_full {front : List Record} {tail : Record} (queue : (s.levelAt r.level).queue = front ++ [tail])
    (full : (s.levelAt r.level).settings.limit.toNat = front.length + 1) :
    s.abortReturn r = (((s.setLevel r.level (Level.raiseHighWater { s.levelAt r.level with queue := r :: front })).countDrop
      r.level).releaseIfHeld tail .refused) := by
  have tooLong : (s.levelAt r.level).settings.limit.toNat < (s.levelAt r.level).queue.length + 1 := by
    rw [queue, full]
    simp
  have kept : (r :: (front ++ [tail])).dropLast = r :: front := List.dropLast_concat (l₁ := r :: front)
  have dropped : (r :: (front ++ [tail])).getLastD r = tail := List.getLastD_concat (l := r :: front)
  rw [State.abortReturn, if_pos tooLong, queue, kept, dropped]

theorem Level.raiseHighWater_of_le {level : Level} (reached : level.queue.length ≤ level.counts.highWater.toNat) :
    level.raiseHighWater = level := by
  rw [Level.raiseHighWater, if_neg (by omega)]

/-- A drop is counted at its level, whatever else has changed there before, and reported. -/
theorem State.countDrop_setLevel (s : State) (l : LevelId) (x : Level) :
    (s.setLevel l x).countDrop l = (s.setLevel l { x with counts := { x.counts with
      dropped := satInc x.counts.dropped } }).setNotices (s.notices.levelCause l) := by
  rw [State.countDrop, State.setLevel_levelAt_self, State.setLevel_notices]
  simp [State.setLevel]

end

/-- Settles O8: the queue has room for the record, or its tail makes it. -/
theorem abortReturnPutsTheRecordAtTheHead : Obligations.AbortReturnPutsTheRecordAtTheHead := by
  unfold Obligations.AbortReturnPutsTheRecordAtTheHead
  refine ⟨fun s r room => ?room, fun s r tail front queue full reached => ?full⟩
  case room =>
    rw [State.abortReturn_of_room room, Level.raiseHighWater_eq]
    rfl
  case full =>
    rw [State.abortReturn_of_full queue full, Level.raiseHighWater_of_le (by exact reached), State.countDrop_setLevel]

/-! ### The causes join their accumulation (R151) -/

section
variable {n : NoticeUnit}

theorem NoticeUnit.lapseCause_enabled (enabled : member n.enables 2 = true) (t : Byte) (l : LevelId) :
    n.lapseCause t l =
      { n with lapse := some { count := satInc ((n.lapse.map Lapses.count).getD 0), ticket := t, level := l } } :=
  if_pos enabled

theorem NoticeUnit.lapseCause_disabled (disabled : member n.enables 2 = false) (t : Byte) (l : LevelId) :
    n.lapseCause t l = n :=
  if_neg (ne_true_of_eq_false disabled)

theorem NoticeUnit.poolCause_enabled (enabled : member n.enables 3 = true) :
    n.poolCause = { n with pool := some (satInc (n.pool.getD 0)) } :=
  if_pos enabled

theorem NoticeUnit.poolCause_disabled (disabled : member n.enables 3 = false) : n.poolCause = n :=
  if_neg (ne_true_of_eq_false disabled)

theorem NoticeUnit.ready_iff : n.ready = true ↔ n.returned.isSome ∨ ∃ kind, n.latched kind = true := by
  rw [NoticeUnit.ready, Bool.or_eq_true, NoticeUnit.nextKind, List.find?_isSome]
  exact or_congr_right ⟨fun ⟨kind, _, latched⟩ => ⟨kind, latched⟩, fun ⟨kind, latched⟩ => ⟨kind, mem_noticeOrder kind, latched⟩⟩

end

/-- Settles O19: an enabled kind's accumulation takes the cause in, as a member of its set or by a count that saturates. -/
theorem causesJoinTheAccumulation : Obligations.CausesJoinTheAccumulation := by
  unfold Obligations.CausesJoinTheAccumulation
  refine ⟨fun n p => rfl, fun n l => rfl, fun n t l enabled => ⟨fun none => ?lapseFirst, fun x latched => ?lapseNext⟩,
    fun n t l disabled => NoticeUnit.lapseCause_disabled disabled t l,
    fun n enabled => ⟨fun none => ?poolFirst, fun x latched => ?poolNext⟩,
    fun n disabled => NoticeUnit.poolCause_disabled disabled, fun n c => rfl, fun n => NoticeUnit.ready_iff⟩
  case lapseFirst =>
    rw [NoticeUnit.lapseCause_enabled enabled, none]
    rfl
  case lapseNext =>
    rw [NoticeUnit.lapseCause_enabled enabled, latched, Option.map_some, Option.getD_some, satInc_byte]
  case poolFirst =>
    rw [NoticeUnit.poolCause_enabled enabled, none]
    rfl
  case poolNext =>
    rw [NoticeUnit.poolCause_enabled enabled, latched, Option.getD_some, satInc_byte]

/-! ### A completion finds its record (R117, R118) -/

section
variable {s : State} {l : LevelId} {r : ServiceRecord}

/-- Tickets in service differ, so that the search by ticket finds the record's own level. -/
theorem State.holderOf_eq_some (distinct : s.TicketsDistinct) (held : s.inServiceAt l = some r) :
    s.holderOf r.ticket = some l := by
  unfold State.holderOf
  cases found : (List.finRange 16).find? fun m => (s.inServiceAt m).any fun q => q.ticket == r.ticket with
  | none =>
    have unheld := List.find?_eq_none.mp found l (List.mem_finRange l)
    simp [held] at unheld
  | some m =>
    have holds := List.find?_some found
    obtain ⟨q, heldThere, same⟩ := (Option.any_eq_true _ _).mp holds
    exact congrArg some (distinct m l q heldThere r held (beq_iff_eq.mp same))

theorem State.topInService_eq_some (highest : s.Highest (fun m => (s.inServiceAt m).isSome) l) : s.topInService = some l :=
  find_rankOrder highest.1 highest.2

theorem State.retireAt_some (held : s.inServiceAt l = some r) (o : RetireOutcome) : s.retireAt (some l) o = s.retire l r o := by
  rw [State.retireAt, held]

theorem State.takeComplete_of_held (distinct : s.TicketsDistinct) (held : s.inServiceAt l = some r) (o : RetireOutcome) :
    s.takeComplete r.ticket o = s.retire l r o := by
  rw [State.takeComplete, State.holderOf_eq_some distinct held, State.retireAt_some held]

theorem State.takeCompleteTop_of_highest (highest : s.Highest (fun m => (s.inServiceAt m).isSome) l)
    (held : s.inServiceAt l = some r) (o : RetireOutcome) : s.takeCompleteTop o = s.retire l r o := by
  rw [State.takeCompleteTop, State.topInService_eq_some highest, State.retireAt_some held]

end

/-- Settles O20: the ticket or the rank finds the record's level, and the outcome byte says how it retires. -/
theorem completionsRetireTheirRecord : Obligations.CompletionsRetireTheirRecord := by
  unfold Obligations.CompletionsRetireTheirRecord
  refine ⟨fun s l r running hunt distinct held named => ⟨?done, ?reject⟩,
    fun s l r running hunt held highest => ⟨?topDone, ?topReject⟩⟩
  case done =>
    rw [exec_complete_of_hunt running hunt named (.inl rfl)]
    exact congrArg Host.Outcome.next (State.takeComplete_of_held distinct held .done)
  case reject =>
    rw [exec_complete_of_hunt running hunt named (.inr rfl)]
    exact congrArg Host.Outcome.next (State.takeComplete_of_held distinct held .reject)
  case topDone =>
    rw [exec_completeTop_of_hunt running hunt (.inl rfl)]
    exact congrArg Host.Outcome.next (State.takeCompleteTop_of_highest highest held .done)
  case topReject =>
    rw [exec_completeTop_of_hunt running hunt (.inr rfl)]
    exact congrArg Host.Outcome.next (State.takeCompleteTop_of_highest highest held .reject)

/-! ### What a retirement does (R120) -/

/-- Settles O22: a retirement's parts, one count and one release outcome for each way to retire. -/
theorem retireDoesAllItsParts : Obligations.RetireDoesAllItsParts := by
  unfold Obligations.RetireDoesAllItsParts
  refine ⟨?parts, fun s l r o => ?notices⟩
  case parts =>
    rintro s t l r o rfl
    rw [State.retire_frame]
    refine ⟨rfl, ?_, ?_, rfl, rfl, rfl, rfl, rfl, rfl, rfl⟩
    · cases o <;> rfl
    · cases o <;> rfl
  case notices =>
    rw [State.retire_frame]
    cases o <;> rfl

/-! ### The service timer expires (R113) -/

section
variable {s : State} {l : LevelId}

theorem exec_serviceTimerExpires_timed {r : ServiceRecord} (running : s.Running) (held : s.inServiceAt l = some r)
    (timed : r.phase.timed = true) : exec (.serviceTimerExpires l) s = .next (s.expire l r) := by
  rw [exec, execServiceTimerExpires, whenRunning_running running, held]
  exact congrArg Host.Outcome.next (if_pos timed)

theorem exec_serviceTimerExpires_idle (running : s.Running)
    (untimed : ∀ r, s.inServiceAt l = some r → r.phase.timed = false) : exec (.serviceTimerExpires l) s = .next s := by
  rw [exec, execServiceTimerExpires, whenRunning_running running]
  split
  · next r held => rw [if_neg (ne_true_of_eq_false (untimed r held))]
  · rfl

end

/-- Settles O24: a running timer's record has attempts left or has none. -/
theorem serviceTimerExpiryResendsOrLapses : Obligations.ServiceTimerExpiryResendsOrLapses := by
  unfold Obligations.ServiceTimerExpiryResendsOrLapses
  refine ⟨fun s l r units running held awaiting => ⟨fun left => ?resent, fun spent => ?lapsed⟩,
    fun s l running none => exec_serviceTimerExpires_idle running fun r held => ?untimed⟩
  case resent =>
    rw [exec_serviceTimerExpires_timed running held (SubState.timed_iff.mpr ⟨units, awaiting⟩), State.expire, if_pos left]
    rfl
  case lapsed =>
    rw [exec_serviceTimerExpires_timed running held (SubState.timed_iff.mpr ⟨units, awaiting⟩), State.expire,
      if_neg (by omega)]
  case untimed =>
    rw [Bool.eq_false_iff, ne_eq, SubState.timed_iff]
    rintro ⟨units, awaiting⟩
    exact none r units held awaiting

end Sys2Proof.Machine
end

section
/-!
The frames the part sends: their bytes (R13, section 1.7), the order in which a port sends its releases (R20, R21), and the order
in which the arbiter grants replies, notices, resends and dispatches (R107 to R109, R114, R129, R130, R134).
-/

namespace Sys2Proof.Machine

/-! ### Bytes made of fields -/

theorem flagsByte_eq (retry held : Bool) (l : LevelId) :
    (0 : BitVec 2) ++ bitOf retry ++ bitOf held ++ levelBits l =
      BitVec.ofNat 8 ((if retry = true then 32 else 0) + (if held = true then 16 else 0) + l.val) := by
  revert retry held l
  decide

theorem condSeqByte_eq (c : Cond) (seq : BitVec 4) :
    condSeqByte c seq = BitVec.ofNat 8 ((condCode c).toNat * 64 + seq.toNat) := by
  revert seq
  cases c <;> decide

theorem releaseOutcomeByte_eq (outcome : ReleaseOutcome) (seq : BitVec 4) :
    (releaseOutcomeCode outcome ++ seq : Byte) = (match outcome with
      | .done => 0x10
      | .refused => 0x20
      | .lapsed => 0x30
      | .flushed => 0x40 : Byte) + seq.zeroExtend 8 := by
  revert seq
  cases outcome <;> decide

/-! ### The frames the part sends (R13, section 1.7) -/

theorem upEventFrame_eq (r : Record) (ticket attempt : Byte) : upEventFrame r ticket attempt = closeFrame
    ([0x61, BitVec.ofNat 8 ((if 2 ≤ attempt.toNat then 32 else 0) + (if r.kind = .held then 16 else 0) + r.level.val),
      ticket, attempt, BitVec.ofNat 8 r.origin, r.node] ++ numberBytes r.code ++
      [BitVec.ofNat 8 ((condCode r.cond).toNat * 64 + r.seq.toNat), r.repeats, r.gen,
        BitVec.ofNat 8 r.payload.length] ++ r.payload) := by
  rw [upEventFrame, flagsByte_eq, condSeqByte_eq]
  simp only [decide_eq_true_eq, beq_iff_eq]
  rfl

theorem releaseFrame_eq (q : ReleaseRequest) : releaseFrame q = closeFrame ([0x52, q.node] ++ numberBytes q.code ++
    [(match q.outcome with
      | .done => 0x10
      | .refused => 0x20
      | .lapsed => 0x30
      | .flushed => 0x40) + q.seq.zeroExtend 8]) := by
  rw [releaseFrame, releaseOutcomeByte_eq]
  rfl

/-- Settles O54: the bytes made of several fields are sums of their places, and every other byte is written as it is. -/
theorem sentFramesFollowTheirLayouts : Obligations.SentFramesFollowTheirLayouts := by
  unfold Obligations.SentFramesFollowTheirLayouts
  refine ⟨fun r ticket attempt => ⟨upEventFrame_eq r ticket attempt, ?eventLength⟩,
    fun q => ⟨releaseFrame_eq q, rfl⟩, fun r => rfl, fun n => ?notice, rfl, fun body => crcRun_closeFrame body⟩
  case eventLength =>
    rw [upEventFrame_eq, closeFrame_length]
    simp [numberBytes]
    omega
  case notice =>
    rw [noticeFrame]
    cases n.kind <;> rfl

/-! ### Releases (R20, R21) -/

section
variable {s : State} {p : PortId}

theorem FieldPort.mayStart_iff (port : FieldPort) : port.mayStart = true ↔
    port.enabled = true ∧ port.rx ≠ .dead ∧ port.tx.sending = none ∧ port.headMarked = false := by
  rw [FieldPort.mayStart, FieldPort.state]
  cases port.enabled with
  | false => simp
  | true => cases port.rx <;> simp [Receiver.live]

theorem exec_releaseTransmissionStart_starts {q : ReleaseRequest} {rest : List ReleaseRequest} (running : s.Running)
    (queued : (look s.ports p).releases = q :: rest) (may : (look s.ports p).mayStart = true) :
    exec (.releaseTransmissionStart p) s = .next (s.setPort p { look s.ports p with
      headMarked := true
      tx := { (look s.ports p).tx with sending := some (releaseFrame q) } }) := by
  rw [exec, execReleaseTransmissionStart, whenRunning_running running, queued]
  exact congrArg Host.Outcome.next (if_pos may)

theorem exec_releaseTransmissionStart_stays (running : s.Running)
    (barred : (look s.ports p).releases = [] ∨ (look s.ports p).mayStart = false) :
    exec (.releaseTransmissionStart p) s = .next s := by
  rw [exec, execReleaseTransmissionStart, whenRunning_running running]
  split
  · rfl
  · next queued =>
    have mayNot := barred.resolve_left (by rw [queued]; exact List.cons_ne_nil _ _)
    rw [if_neg (ne_true_of_eq_false mayNot)]

theorem FieldPort.released_eq (port : FieldPort) :
    port.released = { port with
      releases := if port.headMarked = true then port.releases.drop 1 else port.releases
      headMarked := false
      tx := { sending := none, closing := .endMarker } } := by
  rw [FieldPort.released, List.drop_one]

end

/-- Settles O49: a port that is UP with an idle transmitter sends its head release, which leaves the queue when it has been sent. -/
theorem releasesAreSentInOrder : Obligations.ReleasesAreSentInOrder := by
  unfold Obligations.ReleasesAreSentInOrder
  refine ⟨fun s p q rest running enabled live idle queued unmarked => ?starts, fun s p running barred => ?stays,
    fun s p running => ⟨fun sending => ?sent, fun idle => ?idle⟩⟩
  case starts =>
    rw [exec_releaseTransmissionStart_starts running queued
      ((FieldPort.mayStart_iff _).mpr ⟨enabled, live, idle, unmarked⟩), releaseFrame_eq] <;> rfl
  case stays =>
    refine exec_releaseTransmissionStart_stays running (or_iff_not_imp_left.mpr fun queued => ?_)
    rw [Bool.eq_false_iff, ne_eq, FieldPort.mayStart_iff]
    rintro ⟨enabled, live, idle, unmarked⟩
    simp [enabled, live, idle, unmarked, queued] at barred
  case sent =>
    rw [exec, execReleaseCompletes, whenRunning_running running, if_pos (Option.isSome_iff_ne_none.mpr sending),
      FieldPort.released_eq]
  case idle =>
    rw [exec, execReleaseCompletes, whenRunning_running running, idle]
    rfl

/-! ### The arbiter (R129, R130) -/

section
variable {s : State}

theorem Receiver.live_iff (rx : Receiver) : rx.live = true ↔ rx ≠ .dead := by
  cases rx <;> simp [Receiver.live]

theorem State.trunkFree_iff : s.trunkFree = true ↔ s.trunk.rx ≠ .dead ∧ s.trunk.tx.sending = none := by
  rw [State.trunkFree, Bool.and_eq_true, State.linkUp, Receiver.live_iff, Option.isNone_iff_eq_none]

theorem State.trunkFree_of_busy (busy : s.trunk.rx = .dead ∨ s.trunk.tx.sending ≠ none) : s.trunkFree = false := by
  rw [Bool.eq_false_iff, ne_eq, State.trunkFree_iff]
  rintro ⟨live, idle⟩
  exact busy.elim live (· idle)

theorem NoticeUnit.ready_eq_false_iff {n : NoticeUnit} :
    n.ready = false ↔ n.returned = none ∧ ∀ kind, n.latched kind = false := by
  rw [← Bool.not_eq_true, NoticeUnit.ready_iff]
  simp

theorem State.eventsGrantable_iff : s.eventsGrantable = true ↔ s.EventsMayGo := by
  rw [State.eventsGrantable, State.EventsMayGo]
  simp only [Bool.and_eq_true, State.trunkFree_iff, List.isEmpty_iff, Bool.not_eq_true', NoticeUnit.ready_eq_false_iff,
    beq_iff_eq, and_assoc]

theorem exec_resendGrant_barred (running : s.Running) (barred : s.eventsGrantable = false) :
    exec .resendGrant s = .next s := by
  rw [exec, execResendGrant, whenRunning_running running, barred]
  rfl

theorem exec_dispatchGrant_barred (running : s.Running) (barred : s.eventsGrantable = false) :
    exec .dispatchGrant s = .next s := by
  rw [exec, execDispatchGrant, whenRunning_running running, barred]
  rfl

theorem State.eventsGrantable_of_busy (busy : s.trunkFree = false) : s.eventsGrantable = false := by
  rw [State.eventsGrantable, busy]
  rfl

/-! ### Replies and notices (R130, R134) -/

theorem exec_replyGrant_free (running : s.Running) (free : s.trunkFree = true) {r : ProducedReply} {rest : List ProducedReply}
    (replies : s.trunk.replies = r :: rest) : exec .replyGrant s = .next (s.onTrunk .reply (replyFrame r.reply)) := by
  rw [exec, execReplyGrant, whenRunning_running running, if_pos free, replies]
  rfl

theorem exec_replyGrant_none (running : s.Running) (nothing : s.trunkFree = false ∨ s.trunk.replies = []) :
    exec .replyGrant s = .next s := by
  rw [exec, execReplyGrant, whenRunning_running running]
  rcases nothing with busy | empty
  · rw [if_neg (ne_true_of_eq_false busy)]
  · rw [empty]
    exact congrArg Host.Outcome.next (ite_self s)

theorem exec_noticeGrant_barred (running : s.Running) (barred : s.trunkFree = false ∨ s.trunk.replies ≠ []) :
    exec .noticeGrant s = .next s := by
  rw [exec, execNoticeGrant, whenRunning_running running, if_neg]
  rw [Bool.and_eq_true, List.isEmpty_iff]
  rintro ⟨free, empty⟩
  exact barred.elim (fun busy => Bool.false_ne_true (busy.symm.trans free)) (· empty)

theorem exec_noticeGrant_free (running : s.Running) (free : s.trunkFree = true) (empty : s.trunk.replies = []) :
    exec .noticeGrant s = .next s.grantNotice := by
  rw [exec, execNoticeGrant, whenRunning_running running, free, empty]
  rfl

theorem State.grantNotice_returned {f : NoticeFrame} (returned : s.notices.returned = some f) :
    s.grantNotice = (({ s with notices := { s.notices with returned := none } } : State).onTrunk (.notice f false)
      (noticeFrame f)) := by
  rw [State.grantNotice, returned]
  rfl

theorem State.grantNotice_none (returned : s.notices.returned = none) (unlatched : ∀ kind, s.notices.latched kind = false) :
    s.grantNotice = s := by
  have nextKind : s.notices.nextKind = none := List.find?_eq_none.mpr fun kind _ => by simp [unlatched kind]
  rw [State.grantNotice, returned, nextKind]

/-- The first latched kind is granted, frozen as it is now. -/
theorem State.grantNotice_latched (returned : s.notices.returned = none) {kind : NoticeKind}
    (nextKind : s.notices.nextKind = some kind) {n : NoticeUnit} {f : NoticeFrame} (after : n = s.notices.afterFreeze kind)
    (frozen : f = s.notices.freeze s.freeRecords kind) :
    s.grantNotice = (({ s with notices := n } : State).onTrunk (.notice f false) (noticeFrame f)) := by
  subst after frozen
  rw [State.grantNotice, returned, nextKind]
  rfl

theorem setBytes_eq (h : BitVec 16) : setBytes h = [BitVec.ofNat 8 (h.toNat % 256), BitVec.ofNat 8 (h.toNat / 256)] := by
  rw [setBytes, loByte_eq_mod, hiByte_eq_div]

end

/-- Settles O50: the reply class bars the notices, a returned notice the latched ones, and each kind those after it. -/
theorem repliesGoFirstThenNotices : Obligations.RepliesGoFirstThenNotices := by
  unfold Obligations.RepliesGoFirstThenNotices
  refine ⟨fun s r rest running live idle replies => ?reply,
    fun s running live idle empty => ?notices, fun s running busy => ?busy⟩
  case reply =>
    exact ⟨exec_replyGrant_free running (State.trunkFree_iff.mpr ⟨live, idle⟩) replies,
      exec_noticeGrant_barred running (.inr (by rw [replies]; exact List.cons_ne_nil _ _))⟩
  case notices =>
    have granted := exec_noticeGrant_free running (State.trunkFree_iff.mpr ⟨live, idle⟩) empty
    refine ⟨exec_replyGrant_none running (.inr empty), fun f returned => ?returned, fun returned unlatched => ?none,
      fun n kind data f returned first frame => ?latched⟩
    case returned => rw [granted, State.grantNotice_returned returned]
    case none => rw [granted, State.grantNotice_none returned unlatched]
    case latched =>
      rw [granted]
      subst frame
      refine congrArg Host.Outcome.next ?_
      rcases first with ⟨x, restarted, rfl, rfl, rfl⟩ | ⟨x, restarted, trunk, rfl, rfl, rfl⟩ |
        ⟨x, restarted, trunk, pool, rfl, rfl, rfl⟩ | ⟨x, restarted, trunk, pool, lapse, rfl, rfl, rfl⟩ |
        ⟨x, restarted, trunk, pool, lapse, level, rfl, rfl, rfl⟩ |
        ⟨x, restarted, trunk, pool, lapse, level, port, rfl, rfl, rfl⟩
      · refine State.grantNotice_latched returned (kind := .restarted) ?_ rfl ?_
        · simp [NoticeUnit.nextKind, noticeOrder, NoticeUnit.latched, restarted]
        · cases cause : x.cause <;> simp [NoticeUnit.freeze, NoticeUnit.accumulated, restarted, restartCauseCode, cause]
      · refine State.grantNotice_latched returned (kind := .trunk) ?_ rfl ?_
        · simp [NoticeUnit.nextKind, noticeOrder, NoticeUnit.latched, restarted, trunk]
        · simp [NoticeUnit.freeze, NoticeUnit.accumulated, trunk]
      · refine State.grantNotice_latched returned (kind := .pool) ?_ rfl ?_
        · simp [NoticeUnit.nextKind, noticeOrder, NoticeUnit.latched, restarted, trunk, pool]
        · simp [NoticeUnit.freeze, NoticeUnit.accumulated, pool, byteOf]
      · refine State.grantNotice_latched returned (kind := .lapse) ?_ rfl ?_
        · simp [NoticeUnit.nextKind, noticeOrder, NoticeUnit.latched, restarted, trunk, pool, lapse]
        · simp [NoticeUnit.freeze, NoticeUnit.accumulated, lapse, byteOf]
      · refine State.grantNotice_latched returned (kind := .level) ?_ rfl ?_
        · simp [NoticeUnit.nextKind, noticeOrder, NoticeUnit.latched, restarted, trunk, pool, lapse, level]
        · simp only [NoticeUnit.freeze, NoticeUnit.accumulated, level, Option.getD_some, setBytes_eq]
      · refine State.grantNotice_latched returned (kind := .port) ?_ rfl ?_
        · simp [NoticeUnit.nextKind, noticeOrder, NoticeUnit.latched, restarted, trunk, pool, lapse, level, port]
        · simp [NoticeUnit.freeze, NoticeUnit.accumulated, port]
  case busy =>
    have notFree := State.trunkFree_of_busy busy
    have barred := State.eventsGrantable_of_busy notFree
    exact ⟨exec_replyGrant_none running (.inl notFree), exec_noticeGrant_barred running (.inl notFree),
      exec_resendGrant_barred running barred, exec_dispatchGrant_barred running barred⟩

end Sys2Proof.Machine
end

section
/-!
Resends and dispatches as the arbiter grants them (R107 to R109, R114), what the end of each transmission does (R131, R143, R110,
R115), and the state after a FULL reset (R151).
-/

namespace Sys2Proof.Machine

/-! ### What may be granted (R107, R108, R114) -/

section
variable {s : State} {l : LevelId}

theorem State.waitsForResend_iff : s.waitsForResend l = true ↔ ∃ r, s.inServiceAt l = some r ∧ r.phase = .resendWait := by
  rw [State.waitsForResend]
  cases s.inServiceAt l with
  | none => simp
  | some r => simp

theorem State.headMayGo_iff : s.headMayGo l = true ↔
    ∃ r rest, (s.levelAt l).queue = r :: rest ∧ (r.kind = .posted ∨ s.inServiceAt l = none) := by
  rw [State.headMayGo]
  cases (s.levelAt l).queue with
  | nil => simp
  | cons r rest => simp

theorem State.ranksAboveService_iff : s.ranksAboveService l = true ↔
    ∀ m, (s.inServiceAt m).isSome → ranksAbove s.service.lowest l m = true := by
  rw [State.ranksAboveService, List.all_eq_true]
  refine forall_congr' fun m => ?_
  cases s.inServiceAt m <;> simp

theorem State.candidate_iff : s.candidate l = true ↔ s.Candidate l := by
  have nesting : (s.service.nesting == .flat || s.ranksAboveService l) = true ↔
      (s.service.nesting = .nested → ∀ m, (s.inServiceAt m).isSome → ranksAbove s.service.lowest l m = true) := by
    rw [← State.ranksAboveService_iff]
    cases s.service.nesting <;> simp
  rw [State.candidate, Bool.and_eq_true, Bool.and_eq_true, Bool.not_eq_true', State.headMayGo_iff, nesting, and_assoc,
    State.Candidate]

theorem State.topCandidate_of_highest (highest : s.Highest s.Candidate l) : s.topCandidate = some l :=
  find_rankOrder (State.candidate_iff.mpr highest.1) fun m candidate => highest.2 m (State.candidate_iff.mp candidate)

theorem State.topCandidate_none (none : ∀ l, ¬s.Candidate l) : s.topCandidate = .none :=
  find_rankOrder_none fun l => Bool.eq_false_iff.mpr fun candidate => none l (State.candidate_iff.mp candidate)

theorem State.resendList_of_highest (highest : s.Highest (fun m => s.waitsForResend m = true) l) :
    ∃ later, s.resendList = l :: later := by
  rw [← List.head?_eq_some_iff, State.resendList, List.head?_filter]
  exact find_rankOrder highest.1 highest.2

theorem State.resendList_nil (none : ∀ m, s.waitsForResend m = false) : s.resendList = [] :=
  List.filter_eq_nil_iff.mpr fun m _ => by simp [none m]

/-! ### The grants (R108, R109, R114) -/

theorem exec_resendGrant_granted (running : s.Running) (may : s.EventsMayGo) {later : List LevelId}
    (waits : s.resendList = l :: later) : exec .resendGrant s = .next (s.resendFrom l) := by
  rw [exec, execResendGrant, whenRunning_running running, if_pos (State.eventsGrantable_iff.mpr may), waits]

theorem exec_resendGrant_nothing (running : s.Running) (none : s.resendList = []) : exec .resendGrant s = .next s := by
  rw [exec, execResendGrant, whenRunning_running running, none]
  exact congrArg Host.Outcome.next (ite_self s)

theorem exec_dispatchGrant_granted (running : s.Running) (may : s.EventsMayGo) (none : s.resendList = [])
    (top : s.topCandidate = some l) : exec .dispatchGrant s = .next (s.dispatchFrom l) := by
  rw [exec, execDispatchGrant, whenRunning_running running, State.eventsGrantable_iff.mpr may, none, top]
  rfl

theorem exec_dispatchGrant_behind (running : s.Running) (waits : s.resendList ≠ []) : exec .dispatchGrant s = .next s := by
  rw [exec, execDispatchGrant, whenRunning_running running, if_neg]
  rw [Bool.and_eq_true, List.isEmpty_iff]
  exact fun ⟨_, empty⟩ => waits empty

theorem exec_dispatchGrant_nothing (running : s.Running) (none : s.topCandidate = .none) : exec .dispatchGrant s = .next s := by
  rw [exec, execDispatchGrant, whenRunning_running running, none]
  exact congrArg Host.Outcome.next (ite_self s)

theorem State.resendFrom_eq {r : ServiceRecord} (held : s.inServiceAt l = some r) :
    s.resendFrom l = (s.setInService l (some { r with phase := .resending, attempt := r.attempt + 1 })).onTrunk
      (.resend l r.ticket) (upEventFrame r.record r.ticket (r.attempt + 1)) := by
  rw [State.resendFrom, held]
  rfl

theorem State.dispatchFrom_posted {r : Record} {rest : List Record} (queue : (s.levelAt l).queue = r :: rest)
    (posted : r.kind = .posted) :
    s.dispatchFrom l = (({ s with levelUnit := { s.levelUnit with
      levels := put s.levelUnit.levels l { s.levelAt l with queue := rest }
      inTransmission := some r } } : State).onTrunk (.dispatch l none) (upEventFrame r 0 1)) := by
  rw [State.dispatchFrom, queue]
  simp only [posted]
  rfl

/-- A held record is granted: its level's queue loses it and its dispatched count rises in one update. -/
theorem State.setLevel_grantHeld (x : Level) (r : Record) (ticket : Byte) :
    (s.setLevel l x).grantHeld l r ticket = (({ s with
      levelUnit := { s.levelUnit with levels := put s.levelUnit.levels l { x with
        counts := { x.counts with dispatched := satInc x.counts.dispatched } } }
      service := { s.service with
        inService := put s.service.inService l (some { record := r, ticket := ticket, attempt := 1, phase := .dispatching })
        ticketCounter := ticket } } : State).onTrunk (.dispatch l (some ticket)) (upEventFrame r ticket 1)) := by
  have twice : (s.setLevel l x).setLevel l x.countDispatched = s.setLevel l x.countDispatched := by simp [State.setLevel]
  rw [State.grantHeld, State.setLevel_levelAt_self, twice]
  rfl

theorem State.dispatchFrom_held {r : Record} {rest : List Record} (queue : (s.levelAt l).queue = r :: rest)
    (held : r.kind = .held) :
    s.dispatchFrom l = (s.setLevel l { s.levelAt l with queue := rest }).grantHeld l r s.newTicket := by
  rw [State.dispatchFrom, queue]
  simp only [held]

theorem State.eventsGrantable_of_waiting (waiting : s.trunk.replies ≠ [] ∨ s.notices.returned ≠ none ∨
    (∃ kind, s.notices.latched kind = true) ∨ s.trunk.pause ≠ .running) : s.eventsGrantable = false := by
  rw [Bool.eq_false_iff, ne_eq, State.eventsGrantable_iff]
  rintro ⟨_, _, replies, returned, unlatched, pause⟩
  rcases waiting with some | some | ⟨kind, latched⟩ | paused
  · exact some replies
  · exact some returned
  · exact Bool.false_ne_true ((unlatched kind).symm.trans latched)
  · exact paused pause

end

/-- Settles O51: a resend bars the dispatches, the highest level that waits is served, and anything that is ready for the trunk
bars both. -/
theorem resendsGoAheadOfDispatches : Obligations.ResendsGoAheadOfDispatches := by
  unfold Obligations.ResendsGoAheadOfDispatches
  refine ⟨fun s l r running may held highest => ?resend, fun s l => State.waitsForResend_iff,
    fun s l r rest running may none highest queue => ?dispatch, fun s running waiting => ?barred,
    fun s running none => exec_dispatchGrant_nothing running (State.topCandidate_none none)⟩
  case resend =>
    obtain ⟨later, waits⟩ := State.resendList_of_highest highest
    exact ⟨by rw [exec_resendGrant_granted running may waits, State.resendFrom_eq held],
      exec_dispatchGrant_behind running (by rw [waits]; exact List.cons_ne_nil _ _)⟩
  case dispatch =>
    have nothing := State.resendList_nil none
    have granted := exec_dispatchGrant_granted running may nothing (State.topCandidate_of_highest highest)
    exact ⟨exec_resendGrant_nothing running nothing,
      fun posted => by rw [granted, State.dispatchFrom_posted queue posted],
      fun held => by rw [granted, State.dispatchFrom_held queue held, State.setLevel_grantHeld]⟩
  case barred =>
    have barred := State.eventsGrantable_of_waiting waiting
    exact ⟨exec_resendGrant_barred running barred, exec_dispatchGrant_barred running barred⟩

/-! ### Ends of transmissions (R10, R110, R115, R131, R143) -/

section
variable {s : State}

theorem exec_replyCompletes_reply (running : s.Running) (wire : s.onWire = some .reply) :
    exec .replyCompletes s = .next s.trunkIdle.replySent := by
  have granted : s.trunk.tx.sending.map TrunkFrame.granted = some .reply := wire
  rw [exec, execReplyCompletes, whenRunning_running running, granted]
  rfl

theorem exec_replyCompletes_other (running : s.Running) (wire : s.onWire ≠ some .reply) :
    exec .replyCompletes s = .next s := by
  rw [exec, execReplyCompletes, whenRunning_running running]
  split
  · next granted => exact absurd granted wire
  · rfl
  · rfl
  · rfl
  · rfl

theorem exec_noticeCompletes_notice (running : s.Running) {f : NoticeFrame} {cancelled : Bool}
    (wire : s.onWire = some (.notice f cancelled)) : exec .noticeCompletes s = .next s.trunkIdle := by
  have granted : s.trunk.tx.sending.map TrunkFrame.granted = some (.notice f cancelled) := wire
  rw [exec, execNoticeCompletes, whenRunning_running running, granted]
  rfl

theorem exec_noticeCompletes_other (running : s.Running) (wire : ∀ f c, s.onWire ≠ some (.notice f c)) :
    exec .noticeCompletes s = .next s := by
  rw [exec, execNoticeCompletes, whenRunning_running running]
  split
  · next f c granted => exact absurd granted (wire f c)
  · rfl
  · rfl
  · rfl
  · rfl

theorem exec_firstTransmissionEnds_posted (running : s.Running) {l : LevelId} (wire : s.onWire = some (.dispatch l none)) :
    exec .firstTransmissionEnds s = .next s.trunkIdle.postedSent := by
  have granted : s.trunk.tx.sending.map TrunkFrame.granted = some (.dispatch l none) := wire
  rw [exec, execFirstTransmissionEnds, whenRunning_running running, granted]
  rfl

theorem exec_firstTransmissionEnds_held (running : s.Running) {l : LevelId} {ticket : Byte}
    (wire : s.onWire = some (.dispatch l (some ticket))) :
    exec .firstTransmissionEnds s = .next (s.trunkIdle.awaitAfter l ticket (· == .dispatching)) := by
  have granted : s.trunk.tx.sending.map TrunkFrame.granted = some (.dispatch l (some ticket)) := wire
  rw [exec, execFirstTransmissionEnds, whenRunning_running running, granted]
  rfl

theorem exec_firstTransmissionEnds_other (running : s.Running) (wire : ∀ l t, s.onWire ≠ some (.dispatch l t)) :
    exec .firstTransmissionEnds s = .next s := by
  rw [exec, execFirstTransmissionEnds, whenRunning_running running]
  split
  · next l granted => exact absurd granted (wire l none)
  · next l ticket granted => exact absurd granted (wire l (some ticket))
  · rfl
  · rfl
  · rfl
  · rfl

theorem exec_resendEnds_resend (running : s.Running) {l : LevelId} {ticket : Byte}
    (wire : s.onWire = some (.resend l ticket)) :
    exec .resendEnds s = .next (s.trunkIdle.awaitAfter l ticket (· == .resending)) := by
  have granted : s.trunk.tx.sending.map TrunkFrame.granted = some (.resend l ticket) := wire
  rw [exec, execResendEnds, whenRunning_running running, granted]
  rfl

theorem exec_resendEnds_other (running : s.Running) (wire : ∀ l t, s.onWire ≠ some (.resend l t)) :
    exec .resendEnds s = .next s := by
  rw [exec, execResendEnds, whenRunning_running running]
  split
  · next l t granted => exact absurd granted (wire l t)
  · rfl
  · rfl
  · rfl
  · rfl

/-- The end of the transmission that a held record's sub-state names. -/
theorem exec_transmissionEnd {l : LevelId} {ticket : Byte} {c : Instr} {phase : SubState} (running : s.Running)
    (ends : c = .firstTransmissionEnds ∧ phase = .dispatching ∧ s.onWire = some (.dispatch l (some ticket)) ∨
      c = .resendEnds ∧ phase = .resending ∧ s.onWire = some (.resend l ticket)) :
    exec c s = .next (s.trunkIdle.awaitAfter l ticket (· == phase)) := by
  rcases ends with ⟨rfl, rfl, wire⟩ | ⟨rfl, rfl, wire⟩
  · exact exec_firstTransmissionEnds_held running wire
  · exact exec_resendEnds_resend running wire

theorem State.awaitAfter_reported {l : LevelId} {ticket : Byte} {inPhase : SubState → Bool} {r : ServiceRecord}
    (reported : s.reported l ticket inPhase = some r) :
    s.awaitAfter l ticket inPhase = s.setInService l (some { r with phase := s.awaitingAt l }) := by
  rw [State.awaitAfter, reported]

theorem State.awaitAfter_none {l : LevelId} {ticket : Byte} {inPhase : SubState → Bool}
    (none : s.reported l ticket inPhase = .none) : s.awaitAfter l ticket inPhase = s := by
  rw [State.awaitAfter, none]

theorem State.replySent_cons {r : ProducedReply} {rest : List ProducedReply} (replies : s.trunk.replies = r :: rest) :
    s.replySent = { s with
      trunk := { s.trunk with replies := rest }
      management := s.management.free r.source } := by
  rw [State.replySent, replies]
  rfl

theorem State.postedSent_some {r : Record} (posted : s.levelUnit.inTransmission = some r) :
    s.postedSent = { s with
      levelUnit := { s.levelUnit with
        inTransmission := none
        levels := put s.levelUnit.levels r.level { s.levelAt r.level with
          counts := { (s.levelAt r.level).counts with dispatched := satInc (s.levelAt r.level).counts.dispatched } } }
      service := { s.service with lowest := if s.service.mode = .rotating then r.level else s.service.lowest } } := by
  rw [State.postedSent, posted]
  exact State.serve_frame _ r.level

theorem State.postedSent_none (none : s.levelUnit.inTransmission = .none) : s.postedSent = s := by
  rw [State.postedSent, none]

end

/-- Settles O53: the frame on the wire names its owner, which takes the end of the transmission if it still waits for it. -/
theorem transmissionEndsReachTheirOwner : Obligations.TransmissionEndsReachTheirOwner := by
  unfold Obligations.TransmissionEndsReachTheirOwner
  refine ⟨fun s r rest running wire replies => ?reply, fun s f cancelled running wire => exec_noticeCompletes_notice running wire,
    fun s l running wire => ?posted, fun s l ticket timer c phase running ends isTimer => ?held, fun s running => ?other⟩
  case reply =>
    have sent := State.replySent_cons (s := s.trunkIdle) replies
    refine ⟨fun i source => ?_, fun i source => ?_⟩
    · rw [exec_replyCompletes_reply running wire, sent, source]
      rfl
    · rw [exec_replyCompletes_reply running wire, sent, source]
      rfl
  case posted =>
    have ended := exec_firstTransmissionEnds_posted running wire
    exact ⟨fun r transmitted => ended.trans (congrArg Host.Outcome.next (State.postedSent_some (s := s.trunkIdle) transmitted)),
      fun none => ended.trans (congrArg Host.Outcome.next (State.postedSent_none (s := s.trunkIdle) none))⟩
  case held =>
    have ended := exec_transmissionEnd running ends
    refine ⟨fun r held sameTicket samePhase => ?_, fun absent => ?_⟩
    · subst sameTicket isTimer
      rw [ended, State.awaitAfter_reported (State.reported_of_inService (s := s.trunkIdle) held samePhase)]
      rfl
    · rw [ended, State.awaitAfter_none (State.reported_of_absent (s := s.trunkIdle) absent _)]
  case other =>
    exact ⟨exec_replyCompletes_other running, exec_noticeCompletes_other running, exec_firstTransmissionEnds_other running,
      exec_resendEnds_other running⟩

/-! ### FULL (R151) -/

theorem TrunkTransmitter.abort_eq_endedWith (tx : TrunkTransmitter) : tx.abort = tx.endedWith .abort := by
  rw [TrunkTransmitter.abort, TrunkTransmitter.endedWith]
  cases tx.sending <;> rfl

/-- After a FULL reset the part is as after a pin reset on lines without signal, but for its receivers, the frames ended early
and the cause of its RESTARTED notice. -/
theorem State.fullReset_eq {s : State} (running : s.Running) (tag : Byte) :
    s.fullReset tag = { pinReset { fields := Vector.replicate 6 false, trunk := false } s.pending with
      ports := tabulate fun p => { pinPort (look s.ports p).rx with tx := (look s.ports p).tx.endedWith .abort }
      trunk := { rx := s.trunk.rx, conditions := 0, strays := 0, pause := .running,
                 tx := s.trunk.tx.endedWith .abort, replies := [] }
      notices := pinNotices .full tag } := by
  have notHeld : s.resetHeld = false := running
  unfold State.fullReset pinReset
  simp only [tabulate_const, FieldPort.full, TrunkPort.full, FieldTransmitter.abort_eq_endedWith,
    TrunkTransmitter.abort_eq_endedWith, notHeld]
  rfl

/-- Settles O48: the head request is a RESET of the right length with scope FULL, and the reset takes it with the queue. -/
theorem fullResetGivesTheInitialState : Obligations.FullResetGivesTheInitialState := by
  unfold Obligations.FullResetGivesTheInitialState
  intro s q rest running head isOp operands
  have full : isReset scopeFull q = true := by rw [isReset, isOp, operands]; rfl
  have picked : (q.op == opReset && !isReset scopeTraffic q) = true := by rw [isReset, isOp, operands]; rfl
  have running' : (s.setManagement { s.management with queue := rest }).Running := running
  rw [exec, execResetFull, whenRunning_running running, State.executeHead_picked head picked, if_pos full,
    State.fullReset_eq running']
  rfl

end Sys2Proof.Machine
end

section
/-!
The verdict on a whole frame as the first test that it fails (R4, R7, R8), and the frames that fail none: those that spell the
fields of their kind (R8, R9, section 1.7).
-/

namespace Sys2Proof.Machine

/-! ### The length test, kind by kind (R8) -/

section
variable {bytes : List Byte} {count : Nat}

theorem lengthOk_iff {kind : Byte} : lengthOk kind bytes count = true ↔
    fixedPart kind ≤ count ∧ lengthField kind bytes ≤ lengthMaximum kind ∧
      count = fixedPart kind + lengthField kind bytes := by
  simp only [lengthOk, Bool.and_eq_true, decide_eq_true_eq, and_assoc]

theorem lengthOk_event : lengthOk kindEvent bytes count = true ↔
    (bytes.getD 5 0).toNat ≤ 8 ∧ count = 8 + (bytes.getD 5 0).toNat := by
  rw [lengthOk_iff, show fixedPart kindEvent = 8 from rfl, show lengthMaximum kindEvent = 8 from rfl,
    show lengthField kindEvent bytes = (bytes.getD 5 0).toNat from rfl]
  omega

theorem lengthOk_request : lengthOk kindRequest bytes count = true ↔
    (bytes.getD 3 0).toNat ≤ 24 ∧ count = 6 + (bytes.getD 3 0).toNat := by
  rw [lengthOk_iff, show fixedPart kindRequest = 6 from rfl, show lengthMaximum kindRequest = 24 from rfl,
    show lengthField kindRequest bytes = (bytes.getD 3 0).toNat from rfl]
  omega

theorem lengthOk_complete : lengthOk kindComplete bytes count = true ↔ count = 5 := by
  rw [lengthOk_iff, show fixedPart kindComplete = 5 from rfl, show lengthField kindComplete bytes = 0 from rfl]
  omega

theorem lengthOk_completeTop : lengthOk kindCompleteTop bytes count = true ↔ count = 4 := by
  rw [lengthOk_iff, show fixedPart kindCompleteTop = 4 from rfl, show lengthField kindCompleteTop bytes = 0 from rfl]
  omega

theorem lengthOk_pause : lengthOk kindPause bytes count = true ↔ count = 4 := by
  rw [lengthOk_iff, show fixedPart kindPause = 4 from rfl, show lengthField kindPause bytes = 0 from rfl]
  omega

theorem lengthOk_resume : lengthOk kindResume bytes count = true ↔ count = 3 := by
  rw [lengthOk_iff, show fixedPart kindResume = 3 from rfl, show lengthField kindResume bytes = 0 from rfl]
  omega

end

/-! ### The first failed test (R4, R7, R8) -/

theorem frameVerdict_short (k : LinkKind) {bytes : List Byte} (short : bytes.length < 3) :
    frameVerdict k (gathered k bytes) = .framing := by
  rw [gathered, gathered_eq, frameVerdict, if_pos short]

theorem frameVerdict_unknownKind (k : LinkKind) {kind : Byte} (body : List Byte) (unknown : kind ∉ acceptedKinds k) :
    frameVerdict k (gathered k (closeFrame (kind :: body))) = .unknownKind := by
  rw [gathered, frameVerdict_closeFrame, if_pos unknown]

theorem frameVerdict_length {k : LinkKind} {kind : Byte} {body : List Byte} (accepted : kind ∈ acceptedKinds k)
    (illegal : ¬lengthOk kind ((closeFrame (kind :: body)).take (storeLimit k)) (body.length + 3) = true) :
    frameVerdict k (gathered k (closeFrame (kind :: body))) = .format :=
  frameVerdict_eq_format accepted fun legal => absurd legal illegal

/-- Settles O11: each test in turn, and for each kind the lengths that its own bytes allow. -/
theorem verdictIsTheFirstFailedTest : Obligations.VerdictIsTheFirstFailedTest := by
  unfold Obligations.VerdictIsTheFirstFailedTest
  refine ⟨fun k bytes short => frameVerdict_short k short, fun k kind body unknown => ?unknown, fun body short => ?eventShort,
    fun front plen payload four illegal => ?event, fun body short => ?requestShort,
    fun tag op oplen operands illegal => ?request, fun body illegal => ?complete, fun kind body isKind illegal => ?oneByte,
    fun body illegal => ?resume⟩
  case unknown =>
    refine frameVerdict_unknownKind k body ?_
    cases k
    · exact unknown
    · exact unknown
  case eventShort =>
    refine frameVerdict_length (kind := kindEvent) (by decide) ?_
    rw [lengthOk_event]
    omega
  case event =>
    match front, four with
    | [a, b, c, d], _ =>
      refine frameVerdict_length (k := .field) (kind := kindEvent) (body := [a, b, c, d] ++ plen :: payload) (by decide) ?_
      have field : ((closeFrame (kindEvent :: ([a, b, c, d] ++ plen :: payload))).take (storeLimit .field)).getD 5 0 = plen :=
        rfl
      rw [lengthOk_event, field]
      simp
      omega
  case requestShort =>
    refine frameVerdict_length (kind := kindRequest) (by decide) ?_
    rw [lengthOk_request]
    omega
  case request =>
    refine frameVerdict_length (k := .trunk) (kind := kindRequest) (body := tag :: op :: oplen :: operands) (by decide) ?_
    have field : ((closeFrame (kindRequest :: tag :: op :: oplen :: operands)).take (storeLimit .trunk)).getD 3 0 = oplen := rfl
    rw [lengthOk_request, field]
    simp
    omega
  case complete =>
    refine frameVerdict_length (kind := kindComplete) (by decide) ?_
    rw [lengthOk_complete]
    omega
  case oneByte =>
    rcases isKind with rfl | rfl
    · refine frameVerdict_length (kind := kindCompleteTop) (by decide) ?_
      rw [lengthOk_completeTop]
      omega
    · refine frameVerdict_length (kind := kindPause) (by decide) ?_
      rw [lengthOk_pause]
      omega
  case resume =>
    refine frameVerdict_length (kind := kindResume) (by decide) ?_
    have nonempty := List.length_pos_iff.mpr illegal
    rw [lengthOk_resume]
    omega

/-! ### What a VALID frame spells (R8, R9, section 1.7) -/

/-- A frame with a right check is a body closed by its own check. -/
theorem eq_closeFrame_of_frameCheck {bytes : List Byte} (long : 3 ≤ bytes.length) (right : frameCheck bytes = 0) :
    ∃ kind body, bytes = closeFrame (kind :: body) := by
  obtain ⟨body, hi, lo, rfl⟩ : ∃ body hi lo, bytes = body ++ [hi, lo] := by
    obtain ⟨hi, lo, two⟩ := List.length_eq_two.mp (show (bytes.drop (bytes.length - 2)).length = 2 by
      rw [List.length_drop]
      omega)
    exact ⟨bytes.take (bytes.length - 2), hi, lo, by rw [← two, List.take_append_drop]⟩
  have check : frameCheck body = joinBytes hi lo := crcRun_frame.mp right
  cases body with
  | nil => simp at long
  | cons kind body => exact ⟨kind, body, by rw [closeFrame, check, numberBytes, hiByte_join, loByte_join]⟩

/-- A frame that earns VALID with its own bytes passes every test. -/
theorem frame_of_valid {k : LinkKind} {bytes : List Byte} (valid : frameVerdict k (gathered k bytes) = .valid bytes) :
    ∃ kind body, bytes = closeFrame (kind :: body) ∧ kind ∈ acceptedKinds k ∧
      lengthOk kind bytes (body.length + 3) = true ∧ valuesOk kind bytes = true := by
  have long : 3 ≤ bytes.length := by
    by_contra short
    rw [frameVerdict_short k (by omega)] at valid
    cases valid
  have right : frameCheck bytes = 0 := by
    by_contra wrong
    have check : frameVerdict k (gathered k bytes) = .check := by
      rw [gathered, gathered_eq]
      exact (frameVerdict_eq_check_iff long).mpr wrong
    rw [check] at valid
    cases valid
  obtain ⟨kind, body, rfl⟩ := eq_closeFrame_of_frameCheck long right
  rw [gathered, frameVerdict_closeFrame] at valid
  split_ifs at valid with unknown length values
  have stored := Verdict.valid.inj valid
  rw [stored] at length values
  exact ⟨kind, body, rfl, unknown, Bool.not_eq_false _ ▸ length, Bool.not_eq_false _ ▸ values⟩

section
variable {body : List Byte}

/-- The fields of a byte that holds `cond`, two spare bits and `seq`. -/
theorem condSeq_split (b : Byte) : condBits b ++ b.extractLsb' 4 2 ++ seqBits b = b := by
  revert b
  decide

theorem eventBody_of_length (length : lengthOk kindEvent (closeFrame (kindEvent :: body)) (body.length + 3) = true)
    (values : valuesOk kindEvent (closeFrame (kindEvent :: body)) = true) :
    ∃ node code cond spare seq payload, cond ≠ 3 ∧ payload.length ≤ 8 ∧
      kindEvent :: body = eventBody node code cond spare seq payload := by
  rw [lengthOk_event] at length
  match body, length, values with
  | node :: hi :: lo :: b :: plen :: payload, length, values =>
    have field : (closeFrame (kindEvent :: node :: hi :: lo :: b :: plen :: payload)).getD 5 0 = plen := rfl
    have condField : (closeFrame (kindEvent :: node :: hi :: lo :: b :: plen :: payload)).getD 4 0 = b := rfl
    rw [field] at length
    obtain ⟨fits, agrees⟩ := length
    have size : payload.length = plen.toNat := by
      simp only [List.length_cons] at agrees
      omega
    rw [valuesOk, if_pos rfl, condField, condOfBits_isSome, decide_eq_true_eq] at values
    refine ⟨node, joinBytes hi lo, condBits b, b.extractLsb' 4 2, seqBits b, payload, values, by omega, ?_⟩
    rw [eventBody, condSeq_split, size, numberBytes, hiByte_join, loByte_join, byteOf_of_eq_toNat rfl]
    rfl
  | [], length, _ | [_], length, _ | [_, _], length, _ | [_, _, _], length, _ | [_, _, _, _], length, _ =>
    have agrees := length.2
    simp only [List.length_cons, List.length_nil] at agrees
    omega

theorem requestBody_of_length (length : lengthOk kindRequest (closeFrame (kindRequest :: body)) (body.length + 3) = true) :
    ∃ tag op operands, operands.length ≤ 24 ∧ kindRequest :: body = requestBody tag op operands := by
  rw [lengthOk_request] at length
  match body, length with
  | tag :: op :: oplen :: operands, length =>
    have field : (closeFrame (kindRequest :: tag :: op :: oplen :: operands)).getD 3 0 = oplen := rfl
    rw [field] at length
    obtain ⟨fits, agrees⟩ := length
    have size : operands.length = oplen.toNat := by
      simp only [List.length_cons] at agrees
      omega
    refine ⟨tag, op, operands, by omega, ?_⟩
    rw [requestBody, size, byteOf_of_eq_toNat rfl]
    rfl
  | [], length | [_], length | [_, _], length =>
    have agrees := length.2
    simp only [List.length_cons, List.length_nil] at agrees
    omega

theorem completeBody_of_length (length : lengthOk kindComplete (closeFrame (kindComplete :: body)) (body.length + 3) = true)
    (values : valuesOk kindComplete (closeFrame (kindComplete :: body)) = true) :
    ∃ ticket outcome, ticket ≠ 0 ∧ (outcome = 1 ∨ outcome = 2) ∧ kindComplete :: body = completeBody ticket outcome := by
  rw [lengthOk_complete] at length
  obtain ⟨ticket, outcome, rfl⟩ := List.length_eq_two.mp (show body.length = 2 by omega)
  rw [valuesOk, if_neg (by decide), if_pos rfl, Bool.and_eq_true, bne_iff_ne, completionOutcome_isSome,
    decide_eq_true_eq] at values
  exact ⟨ticket, outcome, values.1, values.2, rfl⟩

theorem completeTopBody_of_length
    (length : lengthOk kindCompleteTop (closeFrame (kindCompleteTop :: body)) (body.length + 3) = true)
    (values : valuesOk kindCompleteTop (closeFrame (kindCompleteTop :: body)) = true) :
    ∃ outcome, (outcome = 1 ∨ outcome = 2) ∧ kindCompleteTop :: body = completeTopBody outcome := by
  rw [lengthOk_completeTop] at length
  obtain ⟨outcome, rfl⟩ := List.length_eq_one_iff.mp (show body.length = 1 by omega)
  rw [valuesOk, if_neg (by decide), if_neg (by decide), if_pos rfl, completionOutcome_isSome, decide_eq_true_eq] at values
  exact ⟨outcome, values, rfl⟩

theorem pauseBody_of_length (length : lengthOk kindPause (closeFrame (kindPause :: body)) (body.length + 3) = true) :
    ∃ duration, kindPause :: body = pauseBody duration := by
  rw [lengthOk_pause] at length
  obtain ⟨duration, rfl⟩ := List.length_eq_one_iff.mp (show body.length = 1 by omega)
  exact ⟨duration, rfl⟩

theorem resumeBody_of_length (length : lengthOk kindResume (closeFrame (kindResume :: body)) (body.length + 3) = true) :
    kindResume :: body = resumeBody := by
  rw [lengthOk_resume] at length
  obtain rfl : body = [] := List.length_eq_zero_iff.mp (by omega)
  rfl

end

/-- Settles O12: a VALID frame is closed by its check, and its kind's length and value tests leave only the frames that spell
their fields; those earn VALID. -/
theorem validFramesSpellTheirFields : Obligations.ValidFramesSpellTheirFields := by
  unfold Obligations.ValidFramesSpellTheirFields
  refine ⟨fun bytes => ⟨fun valid => ?field, ?event⟩, fun bytes => ⟨fun valid => ?trunk, ?trunkKinds⟩,
    fun node code c spare seq payload fits => parseEvent_eventBody node code c spare seq fits⟩
  case field =>
    obtain ⟨kind, body, rfl, accepted, length, values⟩ := frame_of_valid valid
    obtain rfl : kind = kindEvent := List.mem_singleton.mp accepted
    obtain ⟨node, code, cond, spare, seq, payload, legal, fits, spelt⟩ := eventBody_of_length length values
    exact ⟨node, code, cond, spare, seq, payload, legal, fits, congrArg closeFrame spelt⟩
  case event =>
    rintro ⟨node, code, cond, spare, seq, payload, legal, fits, rfl⟩
    exact frameVerdict_event node code spare seq legal fits
  case trunk =>
    obtain ⟨kind, body, rfl, accepted, length, values⟩ := frame_of_valid valid
    simp only [acceptedKinds, List.mem_cons, List.not_mem_nil, or_false] at accepted
    rcases accepted with rfl | rfl | rfl | rfl | rfl
    · obtain ⟨ticket, outcome, named, legal, spelt⟩ := completeBody_of_length length values
      exact .inl ⟨ticket, outcome, named, legal, congrArg closeFrame spelt⟩
    · obtain ⟨outcome, legal, spelt⟩ := completeTopBody_of_length length values
      exact .inr (.inl ⟨outcome, legal, congrArg closeFrame spelt⟩)
    · obtain ⟨duration, spelt⟩ := pauseBody_of_length length
      exact .inr (.inr (.inl ⟨duration, congrArg closeFrame spelt⟩))
    · exact .inr (.inr (.inr (.inl (congrArg closeFrame (resumeBody_of_length length)))))
    · obtain ⟨tag, op, operands, fits, spelt⟩ := requestBody_of_length length
      exact .inr (.inr (.inr (.inr ⟨tag, op, operands, fits, congrArg closeFrame spelt⟩)))
  case trunkKinds =>
    rintro (⟨ticket, outcome, named, legal, rfl⟩ | ⟨outcome, legal, rfl⟩ | ⟨duration, rfl⟩ | rfl |
      ⟨tag, op, operands, fits, rfl⟩)
    · exact frameVerdict_complete named legal
    · exact frameVerdict_completeTop legal
    · exact frameVerdict_pause duration
    · exact frameVerdict_resume
    · exact frameVerdict_request tag op fits

end Sys2Proof.Machine
end

section
/-!
The Classifier's arbiter and its completions (R49 to R55, R58), and the Table Store's swap and copy (R77 to R80).
-/

namespace Sys2Proof.Machine

/-! ### The start of a classification (R49 to R51) -/

section
variable {s : State} {r : Requester}

theorem State.eligible_port (s : State) (p : PortId) :
    s.eligible (requesterOf p) = true ↔ (look s.ports p).received ≠ [] := by
  rw [State.eligible, portOf_castLE, Bool.not_eq_true', List.isEmpty_eq_false_iff]

theorem State.eligible_internal (s : State) : s.eligible 6 = s.classifier.injection.isSome :=
  rfl

theorem State.mayClassify_iff :
    s.mayClassify = true ↔ s.classifier.inFlight = none ∧ s.table.operation.isSwapPending = false := by
  rw [State.mayClassify, Bool.and_eq_true, Option.isNone_iff_eq_none]
  cases s.table.operation <;> simp [BankOperation.isSwapPending]

/-- The arbiter chooses a requester that is eligible when none before it, from the pointer on, is. -/
theorem State.chosen_eq_some (eligible : s.eligible r = true)
    (first : ∀ i : Fin 7, i < r - s.classifier.pointer → s.eligible (s.classifier.pointer + i) = false) :
    s.chosen = some r := by
  refine List.find?_eq_some_iff_getElem.mpr ⟨eligible, (r - s.classifier.pointer).val, by simp, ?_, fun j before => ?_⟩
  · simp
  · have earlier := first ⟨j, by omega⟩ before
    simpa using earlier

theorem State.chosen_eq_none (none : ∀ r, s.eligible r = false) : s.chosen = .none :=
  List.find?_eq_none.mpr fun r _ => by simp [none r]

theorem exec_classificationStart_chosen (running : s.Running) (may : s.mayClassify = true) (chosen : s.chosen = some r) :
    exec .classificationStart s = .next (s.startFor r) := by
  rw [exec, execClassificationStart, whenRunning_running running, if_pos may, chosen]

theorem exec_classificationStart_none (running : s.Running) (none : s.mayClassify = false ∨ s.chosen = .none) :
    exec .classificationStart s = .next s := by
  rw [exec, execClassificationStart, whenRunning_running running]
  rcases none with barred | none
  · rw [if_neg (ne_true_of_eq_false barred)]
  · rw [none]
    exact congrArg Host.Outcome.next (ite_self s)

theorem State.startFor_port {p : PortId} {e : Event} {rest : List Event} (received : (look s.ports p).received = e :: rest) :
    s.startFor (requesterOf p) = (s.setPort p { look s.ports p with received := rest }).setClassifier { s.classifier with
      inFlight := some (s.flight (requesterOf p) e none), pointer := requesterOf p + 1 } := by
  rw [State.startFor, portOf_castLE]
  simp only [received]

theorem State.startFor_internal {i : InjectedEvent} (injection : s.classifier.injection = some i) :
    s.startFor 6 = s.setClassifier { inFlight := some (s.flight 6 i.event (some i.reply)), pointer := 0, injection := none } := by
  rw [State.startFor, portOf_internal]
  simp only [injection]
  rfl

end

/-- Settles O25: the arbiter's search from the pointer on, and the event that the chosen requester gives. -/
theorem classificationStartsInTurn : Obligations.ClassificationStartsInTurn := by
  unfold Obligations.ClassificationStartsInTurn
  refine ⟨fun s p e rest r running idle notPending received isPort first => ?port,
    fun s i running idle notPending injection first => ?internal, fun s running none => ?none,
    fun s => ⟨fun p => s.eligible_port p, by rw [s.eligible_internal]⟩⟩
  case port =>
    subst isPort
    have eligible := (s.eligible_port p).mpr (by rw [received]; exact List.cons_ne_nil _ _)
    rw [exec_classificationStart_chosen running (State.mayClassify_iff.mpr ⟨idle, notPending⟩)
      (State.chosen_eq_some eligible first), State.startFor_port received]
    rfl
  case internal =>
    have eligible : s.eligible 6 = true := by rw [s.eligible_internal, injection]; rfl
    rw [exec_classificationStart_chosen running (State.mayClassify_iff.mpr ⟨idle, notPending⟩)
      (State.chosen_eq_some eligible first), State.startFor_internal injection]
    rfl
  case none =>
    refine exec_classificationStart_none running ?_
    rcases none with busy | pending | none
    · exact .inl (Bool.eq_false_iff.mpr fun may => busy (State.mayClassify_iff.mp may).1)
    · exact .inl (Bool.eq_false_iff.mpr fun may =>
        Bool.false_ne_true ((State.mayClassify_iff.mp may).2.symm.trans pending))
    · exact .inr (State.chosen_eq_none none)

/-! ### The completion of a classification (R52 to R55) -/

section
variable {s : State} {f : FlightEvent}

/-- The state in which a decision's action is carried out: the hit counted and the Classifier IDLE. -/
def State.hitCounted (s : State) (f : FlightEvent) : State :=
  { s with
    table := s.table.setBank f.bank ((s.table.bank f.bank).countHit (s.decide f).decider)
    classifier := { s.classifier with inFlight := none } }

/-- The completion of a classification, but for a swap that waited for it. -/
def State.decided (s : State) (f : FlightEvent) : State :=
  ((s.hitCounted f).carryOut f (s.decide f).action).1.injectReply f (s.decide f)
    ((s.hitCounted f).carryOut f (s.decide f).action).2

/-- An action reads neither the Table Store nor the Classifier, so that the Classifier may be IDLE before it. -/
theorem State.completeFlight_decided (s : State) (f : FlightEvent) : s.completeFlight f = (s.decided f).landSwap := by
  have counted := State.carryOut_unread s (s.table.setBank f.bank ((s.table.bank f.bank).countHit (s.decide f).decider))
    s.classifier f (s.decide f).action
  have hit : (s.hitCounted f).carryOut f (s.decide f).action = _ := State.carryOut_unread s
    (s.table.setBank f.bank ((s.table.bank f.bank).countHit (s.decide f).decider))
    { s.classifier with inFlight := none } f (s.decide f).action
  rw [State.completeFlight_eq, State.decided, hit, State.carriedOut]
  have same : s.countHit f = { s with
    table := s.table.setBank f.bank ((s.table.bank f.bank).countHit (s.decide f).decider)
    classifier := s.classifier } := rfl
  rw [same, counted]
  generalize s.carryOut f (s.decide f).action = done
  unfold State.injectReply
  cases f.reply with
  | none => rfl
  | some r => rfl

theorem State.decided_parts (s : State) (f : FlightEvent) :
    (s.decided f).table = (s.hitCounted f).table ∧ (s.decided f).classifier = (s.hitCounted f).classifier := by
  rw [State.decided]
  simp only [State.injectReply_parts]
  rw [State.carryOut_frame]
  exact ⟨rfl, rfl⟩

theorem State.decided_operation (s : State) (f : FlightEvent) :
    (s.decided f).table.operation = s.table.operation := by
  rw [(s.decided_parts f).1]
  exact (s.table.setBank_parts f.bank _).2.2.1

theorem exec_classificationCompletes (running : s.Running) (inFlight : s.classifier.inFlight = some f) :
    exec .classificationCompletes s = .next (s.completeFlight f) := by
  rw [exec, execClassificationCompletes, whenRunning_running running, inFlight]

/-- No swap waits: a completion is the decision carried out and answered. -/
theorem exec_classificationCompletes_decided (running : s.Running) (inFlight : s.classifier.inFlight = some f)
    (notPending : s.table.operation.isSwapPending = false) :
    exec .classificationCompletes s = .next (s.decided f) := by
  rw [exec_classificationCompletes running inFlight, State.completeFlight_decided,
    State.landSwap_of_busy (.inl (by rw [State.decided_operation]; exact notPending))]

/-- The action's state and outcome, when no INJECT waits for its answer. -/
theorem State.decided_unanswered (unasked : f.reply = none) {a : EntryAction} (action : (s.decide f).action = a) :
    s.decided f = ((s.hitCounted f).carryOut f a).1 := by
  rw [State.decided, action, State.injectReply, unasked]

theorem deciderCode_eq (d : Option EntryId) : deciderCode d = (d.map fun i : EntryId => byteOf i).getD 0xFF := by
  cases d <;> rfl

/-- The action's state with the INJECT answered. -/
theorem State.decided_answered {r : PendingReply} (asked : f.reply = some r) {a : EntryAction} (action : (s.decide f).action = a)
    {t : State} {o : ActionOutcome} (done : (s.hitCounted f).carryOut f a = (t, o)) :
    s.decided f = t.repliedLater r 0x12 .ok
      [((s.decide f).decider.map fun i : EntryId => byteOf i).getD 0xFF, actionCode a, outcomeCode o, f.generation] := by
  rw [State.decided, action, done, State.injectReply, asked, ← deciderCode_eq, action]
  rfl

end

/-- Settles O28: the action that the decision names is carried out with the hit counted and the Classifier IDLE. -/
theorem classificationCompletesByItsDecision : Obligations.ClassificationCompletesByItsDecision := by
  unfold Obligations.ClassificationCompletesByItsDecision
  refine ⟨?decided, fun s running idle => ?idle⟩
  case decided =>
    rintro s hit f d running inFlight unasked notPending rfl rfl
    have completes {a : EntryAction} (action : (s.decide f).action = a) :
        exec .classificationCompletes s = .next ((s.hitCounted f).carryOut f a).1 := by
      rw [exec_classificationCompletes_decided running inFlight notPending, State.decided_unanswered unasked action]
    refine ⟨?_, fun l action => completes action, fun l action => completes action, fun l i action => completes action⟩
    rintro (action | action)
    · exact completes action
    · exact completes action
  case idle => rw [exec, execClassificationCompletes, whenRunning_running running, idle]

/-! ### A swap (R79, R80) -/

section
variable {s : State}

theorem TableStore.swapped_eq_exchanged (t : TableStore) : t.swapped = t.exchanged := by
  rw [TableStore.swapped, TableStore.exchanged]
  cases t.active <;> rfl

theorem State.landSwap_pending {r : PendingReply} (pending : s.table.operation = .swapPending r)
    (idle : s.classifier.inFlight = none) :
    s.landSwap = ({ s with table := s.table.exchanged } : State).repliedLater r 0x07 .ok
      [s.table.generation + 1, letter s.table.exchanged.active] := by
  rw [State.landSwap, pending, idle, TableStore.swapped_eq_exchanged, bankCode_eq_letter]
  rfl

/-- A request that is deferred and answered at once is answered as any other. -/
theorem State.deferred_repliedLater (s : State) (q : QueuedRequest) (rest : List QueuedRequest) (status : Status)
    (data : List Byte) : (s.deferred q rest).repliedLater q.later q.op status data = s.answered q rest status data := by
  rw [State.deferred, State.repliedLater, QueuedRequest.later, State.answered]
  simp only [put_put]

theorem TableStore.operationIdle_iff (t : TableStore) : t.operationIdle = true ↔ t.operation = .idle := by
  rw [TableStore.operationIdle, beq_iff_eq]

section
variable {q : QueuedRequest} {rest : List QueuedRequest}

/-- State with a swap asked for by a request. -/
def State.swapAsked (s : State) (q : QueuedRequest) : State :=
  { s with table := { s.table with operation := .swapPending q.later } }

theorem exec_swapBanks_idle (running : s.Running) (head : s.Head q rest) (ho : q.op = opSwapBanks) (operands : q.operands = [])
    (idle : s.table.operation = .idle) :
    exec .swapBanks s = .next ((s.swapAsked q).deferred q rest).landSwap := by
  rw [exec, execSwapBanks, whenRunning_executeOp running head ho (by rw [operands]; rfl)]
  exact congrArg Host.Outcome.next (if_pos ((TableStore.operationIdle_iff _).mpr idle))

theorem exec_swapBanks_busy (running : s.Running) (head : s.Head q rest) (ho : q.op = opSwapBanks) (operands : q.operands = [])
    (busy : s.table.operation ≠ .idle) : exec .swapBanks s = .next (s.answered q rest .busy []) := by
  rw [exec, execSwapBanks, whenRunning_executeOp running head ho (by rw [operands]; rfl)]
  exact congrArg Host.Outcome.next (if_neg fun idle => busy ((TableStore.operationIdle_iff _).mp idle))

theorem exec_copyBank_idle (running : s.Running) (head : s.Head q rest) (ho : q.op = opCopyBank) (operands : q.operands = [])
    (idle : s.table.operation = .idle) :
    exec .copyBank s =
      .next (({ s with table := { s.table with operation := .copying (.entry 0) q.later } } : State).deferred q rest) := by
  rw [exec, execCopyBank, whenRunning_executeOp running head ho (by rw [operands]; rfl)]
  exact congrArg Host.Outcome.next (if_pos ((TableStore.operationIdle_iff _).mpr idle))

theorem exec_copyBank_busy (running : s.Running) (head : s.Head q rest) (ho : q.op = opCopyBank) (operands : q.operands = [])
    (busy : s.table.operation ≠ .idle) : exec .copyBank s = .next (s.answered q rest .busy []) := by
  rw [exec, execCopyBank, whenRunning_executeOp running head ho (by rw [operands]; rfl)]
  exact congrArg Host.Outcome.next (if_neg fun idle => busy ((TableStore.operationIdle_iff _).mp idle))

end

/-- State with the bank-operation state IDLE. -/
def State.withoutOperation (s : State) : State := { s with table := { s.table with operation := .idle } }

theorem TableStore.bank_withoutOperation (t : TableStore) (id : BankId) :
    ({ t with operation := .idle } : TableStore).bank id = t.bank id := by
  cases id <;> rfl

theorem TableStore.setBank_withoutOperation (t : TableStore) (id : BankId) (b : Bank) :
    ({ t with operation := .idle } : TableStore).setBank id b = { t.setBank id b with operation := .idle } := by
  cases id <;> rfl

theorem State.decide_withoutOperation (s : State) (f : FlightEvent) : s.withoutOperation.decide f = s.decide f :=
  congrArg (Bank.lookup · f.requester f.event) (s.table.bank_withoutOperation f.bank)

theorem State.hitCounted_withoutOperation (s : State) (f : FlightEvent) :
    s.withoutOperation.hitCounted f = (s.hitCounted f).withoutOperation := by
  rw [State.hitCounted, State.decide_withoutOperation]
  simp only [State.withoutOperation, State.hitCounted, TableStore.bank_withoutOperation, TableStore.setBank_withoutOperation]

/-- A decision is carried out the same way whatever the bank-operation state. -/
theorem State.decided_withoutOperation (s : State) (f : FlightEvent) :
    s.withoutOperation.decided f = (s.decided f).withoutOperation := by
  have carried : (s.hitCounted f).withoutOperation.carryOut f (s.decide f).action = _ :=
    State.carryOut_unread (s.hitCounted f) { (s.hitCounted f).table with operation := .idle } (s.hitCounted f).classifier f
      (s.decide f).action
  have frame := State.carryOut_frame (s.hitCounted f) f (s.decide f).action
  rw [State.decided, State.decided, State.decide_withoutOperation, State.hitCounted_withoutOperation, carried]
  generalize (s.hitCounted f).carryOut f (s.decide f).action = done at frame
  have table : done.1.table = (s.hitCounted f).table := by rw [frame]
  have classifier : done.1.classifier = (s.hitCounted f).classifier := by rw [frame]
  rw [← table, ← classifier]
  unfold State.injectReply
  cases f.reply with
  | none => rfl
  | some r => rfl

end

/-- Settles O32: a swap lands where the Classifier is IDLE, and a completion leaves it IDLE with the swap still pending. -/
theorem swapExchangesTheRoles : Obligations.SwapExchangesTheRoles := by
  unfold Obligations.SwapExchangesTheRoles
  refine ⟨fun s r running pending idle => ?lands, fun s running waits => ?waits,
    fun s q rest running head ho operands => ⟨fun tableIdle idle => ?now, fun tableIdle busy => ?later,
      exec_swapBanks_busy running head ho operands⟩,
    fun s done f r running inFlight pending completes => ?completes⟩
  case lands =>
    rw [exec, execSwapTakesEffect, whenRunning_running running, State.landSwap_pending pending idle]
  case waits =>
    rw [exec, execSwapTakesEffect, whenRunning_running running, State.landSwap_of_busy waits]
  case now =>
    have answers := State.deferred_repliedLater { s with table := s.table.exchanged } q rest .ok
      [s.table.generation + 1, letter s.table.exchanged.active]
    rw [exec_swapBanks_idle running head ho operands tableIdle, ← answers, ho]
    exact congrArg Host.Outcome.next (State.landSwap_pending (s := (s.swapAsked q).deferred q rest) rfl idle)
  case later =>
    rw [exec_swapBanks_idle running head ho operands tableIdle]
    exact congrArg Host.Outcome.next (State.landSwap_of_busy (s := (s.swapAsked q).deferred q rest) (.inr busy))
  case completes =>
    have running' : s.withoutOperation.Running := running
    have isDone : done = (s.decided f).withoutOperation := by
      have decided := exec_classificationCompletes_decided (s := s.withoutOperation) running' inFlight rfl
      rw [State.decided_withoutOperation] at decided
      exact Host.Outcome.next.inj (completes.symm.trans decided)
    have idle : (s.decided f).classifier.inFlight = none := by
      rw [(s.decided_parts f).2]
      rfl
    rw [exec_classificationCompletes running inFlight, State.completeFlight_decided,
      State.landSwap_pending ((s.decided_operation f).trans pending) idle, isDone]
    rfl

/-! ### A copy (R77, R78) -/

theorem CopyProgress.next_entry (i : EntryId) :
    CopyProgress.next (.entry i) = if h : i.val < 63 then .entry ⟨i.val + 1, by omega⟩ else .defaultRecord := by
  rw [CopyProgress.next]
  by_cases last : i = 63
  · subst last
    rfl
  · have before : i.val < 63 := by
      have notLast : i.val ≠ 63 := fun same => last (Fin.ext same)
      omega
    rw [if_neg last, dif_pos before]
    refine congrArg CopyProgress.entry (Fin.ext ?_)
    rw [Fin.val_add]
    exact Nat.mod_eq_of_lt (by omega)

theorem exec_copyStep_copying {s : State} {progress : CopyProgress} {r : PendingReply} (running : s.Running)
    (copying : s.table.operation = .copying progress r) :
    exec .copyStep s = .next { s with table := { s.table.copyItem progress with operation := .copying progress.next r } } := by
  rw [exec, execCopyStep, whenRunning_running running, copying]
  rfl

/-- The STANDBY bank is edited and the copy goes on: the ACTIVE bank, the roles and the generation stay. -/
theorem TableStore.edited_parts (t : TableStore) (b : Bank) (operation : BankOperation) :
    ({ t.setBank t.standby b with operation := operation } : TableStore).bank t.active = t.bank t.active ∧
    ({ t.setBank t.standby b with operation := operation } : TableStore).bank t.standby = b ∧
    ({ t.setBank t.standby b with operation := operation } : TableStore).active = t.active ∧
    ({ t.setBank t.standby b with operation := operation } : TableStore).generation = t.generation ∧
    ({ t.setBank t.standby b with operation := operation } : TableStore).operation = operation := by
  have unread (u : TableStore) (id : BankId) : ({ u with operation := operation } : TableStore).bank id = u.bank id := by
    cases id <;> rfl
  rw [unread, unread]
  simp

/-- Settles O33: a copy's three sorts of step, each an edit of the STANDBY bank or the answer at the end. -/
theorem copyReplacesItemByItem : Obligations.CopyReplacesItemByItem := by
  unfold Obligations.CopyReplacesItemByItem
  refine ⟨fun s q rest running head ho operands => ⟨exec_copyBank_idle running head ho operands,
      exec_copyBank_busy running head ho operands⟩, fun s i r running copying => ?entry,
    fun s r running copying => ?defaultRecord, fun s r running copying => ?ends, fun s running none => ⟨?step, ?ended⟩⟩
  case entry =>
    refine ⟨_, exec_copyStep_copying running copying, ?_⟩
    rw [← CopyProgress.next_entry]
    exact s.table.edited_parts _ _
  case defaultRecord => exact ⟨_, exec_copyStep_copying running copying, s.table.edited_parts _ _⟩
  case ends =>
    rw [exec, execCopyCompletes, whenRunning_running running, copying, bankCode_eq_letter]
    rfl
  case step =>
    rw [exec, execCopyStep, whenRunning_running running]
    split
    · next progress r copying =>
      rw [copying] at none
      cases none
    · rfl
    · rfl
  case ended =>
    rw [exec, execCopyCompletes, whenRunning_running running]
    split
    · next r copying =>
      rw [copying] at none
      cases none
    · rfl
    · rfl
    · rfl
    · rfl

end Sys2Proof.Machine
end

section
/-!
Admission, test by test: coalesce (R90), duplicate (R91), room (R92) and allocation (R93).
-/

namespace Sys2Proof.Machine

/-! ### The coalesce test (R90) -/

section
variable {q : Record}

theorem coalescesWith_iff {r : Record} : coalescesWith r q = true ↔
    r.kind = .posted ∧ r.mayCoalesce = true ∧ r.origin = q.origin ∧ r.node = q.node ∧ r.code = q.code ∧ r.cond = q.cond := by
  simp only [coalescesWith, Bool.and_eq_true, beq_iff_eq, and_assoc]

theorem mergedInto_eq (r : Record) : mergedInto r q =
    { r with repeats := if r.repeats = 255 then 255 else r.repeats + 1, seq := q.seq, payload := q.payload } := by
  rw [mergedInto, satInc_byte]

theorem mergeFirst_of_first {r : Record} (back : List Record) (qualifies : coalescesWith r q = true) :
    ∀ {front : List Record}, (∀ x ∈ front, coalescesWith x q = false) →
      mergeFirst q (front ++ r :: back) = some (front ++ mergedInto r q :: back)
  | [], _ => if_pos qualifies
  | x :: front, others => by
    have notFirst := others x List.mem_cons_self
    have later := mergeFirst_of_first back qualifies fun y mem => others y (List.mem_cons_of_mem x mem)
    rw [List.cons_append, mergeFirst, if_neg (ne_true_of_eq_false notFirst), later, Option.map_some]
    rfl

theorem mergeFirst_eq_none : ∀ {queue : List Record}, (∀ x ∈ queue, coalescesWith x q = false) → mergeFirst q queue = none
  | [], _ => rfl
  | x :: queue, others => by
    have notFirst := others x List.mem_cons_self
    have later := mergeFirst_eq_none fun y mem => others y (List.mem_cons_of_mem x mem)
    rw [mergeFirst, if_neg (ne_true_of_eq_false notFirst), later, Option.map_none]

end

section
variable {s : State} {q : Record}

theorem State.mayCoalesceNow_iff : s.mayCoalesceNow q = true ↔
    q.kind = .posted ∧ q.mayCoalesce = true ∧ (s.levelAt q.level).settings.coalesce = true := by
  simp only [State.mayCoalesceNow, Bool.and_eq_true, beq_iff_eq, and_assoc]

theorem State.admission_coalesced (may : s.mayCoalesceNow q = true) {queue : List Record}
    (merged : mergeFirst q (s.levelAt q.level).queue = some queue) :
    s.admission q = (s.setLevel q.level { s.levelAt q.level with queue := queue }, .coalesced) := by
  rw [State.admission, State.coalesce, if_pos may, merged]
  rfl

theorem State.admission_not_coalesced
    (none : s.mayCoalesceNow q = false ∨ mergeFirst q (s.levelAt q.level).queue = .none) :
    s.admission q = if s.isDuplicate q then (s, .duplicate) else s.admitToRoom q := by
  have noMerge : s.coalesce q = .none := by
    rw [State.coalesce]
    rcases none with barred | none
    · rw [if_neg (ne_true_of_eq_false barred)]
    · rw [none, Option.map_none, ite_self]
  rw [State.admission, noMerge]

/-! ### The duplicate test (R91) -/

theorem duplicates_iff_fields {r : Record} : duplicates r q = true ↔
    r.kind = .held ∧ r.origin = q.origin ∧ r.node = q.node ∧ r.code = q.code ∧ r.seq = q.seq := by
  simp only [duplicates, Bool.and_eq_true, beq_iff_eq, and_assoc]

/-- A held request's duplicate waits in a queue or is in service. -/
theorem State.isDuplicate_iff (held : q.kind = .held) : s.isDuplicate q = true ↔
    (∃ l r, r ∈ (s.levelAt l).queue ∧ duplicates r q = true) ∨
      ∃ l r, s.inServiceAt l = some r ∧ duplicates r.record q = true := by
  rw [State.isDuplicate, held]
  simp only [beq_self_eq_true, Bool.true_and, List.any_eq_true, Bool.or_eq_true, Option.any_eq_true, List.mem_finRange,
    true_and, exists_or]

theorem State.isDuplicate_posted (posted : q.kind = .posted) : s.isDuplicate q = false := by
  rw [State.isDuplicate, posted]
  rfl

end

/-- Settles O30: a posted request merges into the first record that qualifies; a held one is suppressed by any record like it. -/
theorem admissionMergesOrSuppressesRepeats : Obligations.AdmissionMergesOrSuppressesRepeats := by
  unfold Obligations.AdmissionMergesOrSuppressesRepeats
  refine ⟨⟨fun s q r front back posted may coalesce queue qualifies first => ?merged, fun s q posted none => ?room⟩,
    fun s q like held isLike => ⟨fun repeated => ?duplicate, fun newQueued newServing => ?new⟩⟩
  case merged =>
    have others : ∀ x ∈ front, coalescesWith x q = false := fun x mem =>
      Bool.eq_false_iff.mpr fun also => first x mem (coalescesWith_iff.mp also)
    rw [State.admission_coalesced (State.mayCoalesceNow_iff.mpr ⟨posted, may, coalesce⟩)
      (queue ▸ mergeFirst_of_first back (coalescesWith_iff.mpr qualifies) others), mergedInto_eq]
  case room =>
    rw [State.admission_not_coalesced, State.isDuplicate_posted posted, if_neg Bool.false_ne_true]
    rcases none with barred | off | none
    · exact .inl (Bool.eq_false_iff.mpr fun may =>
        Bool.false_ne_true (barred.symm.trans (State.mayCoalesceNow_iff.mp may).2.1))
    · exact .inl (Bool.eq_false_iff.mpr fun may =>
        Bool.false_ne_true (off.symm.trans (State.mayCoalesceNow_iff.mp may).2.2))
    · exact .inr (mergeFirst_eq_none fun x mem => Bool.eq_false_iff.mpr fun qualifies =>
        none x mem (coalescesWith_iff.mp qualifies))
  case duplicate =>
    subst isLike
    have isDuplicate : s.isDuplicate q = true := by
      rw [State.isDuplicate_iff held]
      simp only [duplicates_iff_fields]
      exact repeated
    rw [State.admission_not_coalesced (.inl (by simp [State.mayCoalesceNow, held])), if_pos isDuplicate]
  case new =>
    subst isLike
    have isNew : ¬s.isDuplicate q = true := by
      rw [State.isDuplicate_iff held]
      simp only [duplicates_iff_fields]
      rintro (⟨l, r, mem, like⟩ | ⟨l, r, serving, like⟩)
      · exact newQueued l r mem like
      · exact newServing l r serving like
    rw [State.admission_not_coalesced (.inl (by simp [State.mayCoalesceNow, held])), if_neg isNew]

/-! ### The room test (R92) -/

section
variable {s : State} {q : Record}

theorem State.admitToRoom_of_room (room : (s.levelAt q.level).queue.length < (s.levelAt q.level).settings.limit.toNat) :
    s.admitToRoom q = s.allocate q := by
  have hasRoom : s.hasRoom q.level = true := decide_eq_true room
  rw [State.admitToRoom, if_pos hasRoom]

theorem State.admitToRoom_dropNew (full : (s.levelAt q.level).queue.length = (s.levelAt q.level).settings.limit.toNat)
    (policy : (s.levelAt q.level).settings.policy = .dropNew) :
    s.admitToRoom q = ((s.countDrop q.level).releaseIfHeld q .refused, .dropped) := by
  have noRoom : s.hasRoom q.level = false := decide_eq_false (by omega)
  rw [State.admitToRoom, noRoom, policy]
  rfl

theorem State.admitToRoom_dropOld (full : (s.levelAt q.level).queue.length = (s.levelAt q.level).settings.limit.toNat)
    (policy : (s.levelAt q.level).settings.policy = .dropOld) : s.admitToRoom q = (s.displaceHead q.level).allocate q := by
  have noRoom : s.hasRoom q.level = false := decide_eq_false (by omega)
  rw [State.admitToRoom, noRoom, policy]
  rfl

/-- The displaced record may be taken out after its drop is counted. -/
theorem State.displaceHead_cons {l : LevelId} {r : Record} {rest : List Record} (queue : (s.levelAt l).queue = r :: rest) :
    s.displaceHead l =
      ((s.countDrop l).setLevel l { (s.countDrop l).levelAt l with queue := rest }).releaseIfHeld r .refused := by
  have dropped : (s.countDrop l).levelAt l = { s.levelAt l with
      counts := { (s.levelAt l).counts with dropped := satInc (s.levelAt l).counts.dropped } } :=
    State.setLevel_levelAt_self s l _
  rw [State.displaceHead, queue, dropped]
  refine congrArg (State.releaseIfHeld · r .refused) ((State.countDrop_setLevel s l _).trans ?_)
  simp [State.countDrop, State.setLevel, State.setNotices]

/-! ### The allocation test (R93) -/

theorem State.allocate_of_empty (empty : s.freeRecords = 0) : s.allocate q = (s.refusePool q, .refusedPool) := by
  rw [State.allocate, if_pos empty]

theorem State.allocate_of_free (free : 0 < s.freeRecords) : s.allocate q = ((s.enqueue q).lowerMark, .queued) := by
  rw [State.allocate, if_neg (by omega)]

/-- A record is placed at the tail of its level's queue, and the marks follow. -/
theorem State.enqueue_lowerMark : (s.enqueue q).lowerMark = { s with
    levelUnit := { s.levelUnit with
      levels := put s.levelUnit.levels q.level { s.levelAt q.level with
        queue := (s.levelAt q.level).queue ++ [q]
        counts := { (s.levelAt q.level).counts with
          highWater := BitVec.ofNat 16
            (max (s.levelAt q.level).counts.highWater.toNat ((s.levelAt q.level).queue.length + 1)) } }
      lowWater := BitVec.ofNat 8 (min s.levelUnit.lowWater.toNat (s.freeRecords - 1)) } } := by
  have taken : (s.enqueue q).freeRecords = s.freeRecords - 1 := by
    rw [State.freeRecords, State.enqueue_usedRecords, State.freeRecords]
    omega
  have lowWater : (s.enqueue q).levelUnit.lowWater = s.levelUnit.lowWater := rfl
  rw [State.lowerMark_eq, taken, lowWater, State.enqueue, Level.raiseHighWater_eq, List.length_append, List.length_singleton]
  rfl

theorem State.refusePool_eq : s.refusePool q = ({ s with
    levelUnit := { s.levelUnit with
      refusals := if s.levelUnit.refusals = 65535 then 65535 else s.levelUnit.refusals + 1 }
    notices := s.notices.poolCause } : State).releaseIfHeld q .refused := by
  rw [State.refusePool, satInc_half]
  rfl

end

/-- Settles O31: the level's room and policy, then the pool, decide what becomes of the request. -/
theorem admissionTakesRoomAndARecord : Obligations.AdmissionTakesRoomAndARecord := by
  unfold Obligations.AdmissionTakesRoomAndARecord
  refine ⟨fun s dropped q isDropped => ⟨fun room => State.admitToRoom_of_room room, fun full => ⟨fun policy => ?new,
    fun r rest policy queue => ?old⟩⟩, fun s q free => ?queued, fun s refused q empty isRefused => ?refused⟩
  case new =>
    have counted : s.countDrop q.level = dropped := isDropped.symm
    rw [State.admitToRoom_dropNew full policy, counted]
    exact ⟨fun posted => by rw [State.releaseIfHeld_posted posted],
      fun held => by rw [State.releaseIfHeld_held held]; rfl⟩
  case old =>
    have counted : s.countDrop q.level = dropped := isDropped.symm
    rw [State.admitToRoom_dropOld full policy, State.displaceHead_cons queue, counted]
    exact ⟨fun posted => by rw [State.releaseIfHeld_posted posted],
      fun held => by rw [State.releaseIfHeld_held held]; rfl⟩
  case queued => rw [State.allocate_of_free free, State.enqueue_lowerMark]
  case refused =>
    rw [State.allocate_of_empty empty, State.refusePool_eq, ← isRefused]
    exact ⟨fun posted => by rw [State.releaseIfHeld_posted posted],
      fun held => by rw [State.releaseIfHeld_held held]; rfl⟩

end Sys2Proof.Machine
end

section
/-!
Requests that are answered without effect (R144, R150), INJECT from its request to its answer (R57, R58, R149), READ-TRUNK and
NOTICE-ENABLE (R127, R135, R148), and a TRAFFIC reset (R150).
-/

namespace Sys2Proof.Machine

/-! ### INJECT (R57, R58, R149) -/

section
variable {s : State} {q : QueuedRequest} {rest : List QueuedRequest} {ops : List Byte}

theorem injectLengthOk_iff : injectLengthOk ops = true ↔
    6 ≤ ops.length ∧ (operand ops 5).toNat + 6 = ops.length ∧ (operand ops 5).toNat ≤ 8 := by
  simp only [injectLengthOk, Bool.and_eq_true, decide_eq_true_eq, and_assoc]

/-- The head request is an INJECT, which is carried out with its request gone from the queue. -/
theorem exec_inject_head (running : s.Running) (head : s.Head q rest) (ho : q.op = opInject) {t : State}
    (done : (if injectLengthOk q.operands then
      match injectedEvent q.operands with
      | some e => (s.setManagement { s.management with queue := rest }).injectEvent q e
      | none => s.answered q rest .illegal []
      else s.answered q rest .malformed []) = t) : exec .inject s = .next t := by
  subst done
  rw [exec, execInject, whenRunning_running running]
  exact congrArg Host.Outcome.next
    (State.executeHead_picked (picks := fun q => q.op == opInject) head (beq_iff_eq.mpr ho) _)

theorem exec_inject_malformed (running : s.Running) (head : s.Head q rest) (ho : q.op = opInject)
    (length : injectLengthOk q.operands = false) : exec .inject s = .next (s.answered q rest .malformed []) :=
  exec_inject_head running head ho (if_neg (ne_true_of_eq_false length))

theorem exec_inject_illegal (running : s.Running) (head : s.Head q rest) (ho : q.op = opInject)
    (length : injectLengthOk q.operands = true) (illegal : injectedEvent q.operands = none) :
    exec .inject s = .next (s.answered q rest .illegal []) :=
  exec_inject_head running head ho (by rw [if_pos length, illegal])

theorem exec_inject_legal (running : s.Running) (head : s.Head q rest) (ho : q.op = opInject)
    (length : injectLengthOk q.operands = true) {e : Event} (legal : injectedEvent q.operands = some e) :
    exec .inject s = .next ((s.setManagement { s.management with queue := rest }).injectEvent q e) :=
  exec_inject_head running head ho (by rw [if_pos length, legal])

theorem State.injectEvent_busy (s : State) (q : QueuedRequest) (e : Event) (busy : s.classifier.injection ≠ none) :
    s.injectEvent q e = s.answer q .busy [] := by
  obtain ⟨i, occupied⟩ := Option.ne_none_iff_exists'.mp busy
  rw [State.injectEvent, occupied]

theorem State.injectEvent_free (s : State) (q : QueuedRequest) (e : Event) (free : s.classifier.injection = none) :
    s.injectEvent q e =
      (s.defer q).setClassifier { s.classifier with injection := some { event := e, reply := q.later } } := by
  rw [State.injectEvent, free]

theorem exec_inject_busy (running : s.Running) (head : s.Head q rest) (ho : q.op = opInject)
    (length : injectLengthOk q.operands = true) {e : Event} (legal : injectedEvent q.operands = some e)
    (busy : s.classifier.injection ≠ none) : exec .inject s = .next (s.answered q rest .busy []) := by
  rw [exec_inject_legal running head ho length legal, State.injectEvent_busy _ q e (by exact busy), State.answer_of_head]

theorem exec_inject_taken (running : s.Running) (head : s.Head q rest) (ho : q.op = opInject)
    (length : injectLengthOk q.operands = true) {e : Event} (legal : injectedEvent q.operands = some e)
    (free : s.classifier.injection = none) :
    exec .inject s = .next (({ s with classifier := { s.classifier with
      injection := some { event := e, reply := { slot := q.slot, tag := q.tag } } } } : State).deferred q rest) := by
  rw [exec_inject_legal running head ho length legal, State.injectEvent_free _ q e (by exact free)]
  rfl

end

section
variable {node high low cond seq plen : Byte} {payload : List Byte}

theorem injectedEvent_illegal (illegal : 2 < cond.toNat ∨ 15 < seq.toNat) :
    injectedEvent (node :: high :: low :: cond :: seq :: plen :: payload) = none :=
  if_pos illegal.symm

theorem injectedEvent_legal {c : Cond} (isCond : cond.toNat = (condCode c).toNat) (inRange : seq.toNat ≤ 15) :
    injectedEvent (node :: high :: low :: cond :: seq :: plen :: payload) = some {
      node := node, code := joinBytes high low, cond := c, seq := BitVec.ofNat 4 seq.toNat, payload := payload } := by
  have bound : (condCode c).toNat ≤ 2 := by cases c <;> decide
  have legal : ¬(15 < seq.toNat ∨ 2 < cond.toNat) := by omega
  have code : cond.truncate 2 = condCode c := by
    refine BitVec.eq_of_toNat_eq ?_
    rw [BitVec.truncate_eq_setWidth, BitVec.toNat_setWidth, isCond]
    exact Nat.mod_eq_of_lt (by omega)
  refine (if_neg legal).trans ?_
  have condition : condOfBits (cond.truncate 2) = some c := by rw [code, condOfBits_condCode]
  simp only [operand, List.getD_cons_succ, List.getD_cons_zero, condition, Option.map_some, BitVec.ofNat_toNat,
    BitVec.truncate_eq_setWidth]
  rfl

end

/-- Settles O46: the operands fill the slot or are refused, and the completion of the injected event answers its request with what
was done. -/
theorem injectFillsTheSlotAndIsAnsweredLater : Obligations.InjectFillsTheSlotAndIsAnsweredLater := by
  unfold Obligations.InjectFillsTheSlotAndIsAnsweredLater
  refine ⟨fun s q rest node high low cond seq plen payload running head ho operands size fits => ?request, ?answer⟩
  case request =>
    have length : injectLengthOk q.operands = true := by
      rw [operands, injectLengthOk_iff]
      simp [operand, size]
      omega
    refine ⟨fun illegal => ?_, fun c isCond inRange => ?_⟩
    · exact exec_inject_illegal running head ho length (operands ▸ injectedEvent_illegal illegal)
    · have legal := operands ▸ injectedEvent_legal (node := node) (high := high) (low := low) (plen := plen)
        (payload := payload) isCond inRange
      exact ⟨exec_inject_busy running head ho length legal, exec_inject_taken running head ho length legal⟩
  case answer =>
    rintro s hit f r d running inFlight asked notPending rfl rfl
    have answers {a : EntryAction} {t : State} {o : ActionOutcome} (action : (s.decide f).action = a)
        (done : (s.hitCounted f).carryOut f a = (t, o)) :
        exec .classificationCompletes s = .next (t.repliedLater r 0x12 .ok
          [((s.decide f).decider.map fun i : EntryId => byteOf i).getD 0xFF, actionCode a, outcomeCode o, f.generation]) := by
      rw [exec_classificationCompletes_decided running inFlight notPending, State.decided_answered asked action done]
    exact ⟨fun action => answers action rfl, fun action => answers action rfl, fun l t o action done => answers action done,
      fun l t o action done => answers action done, fun l i t o action done => answers action done⟩

/-! ### READ-TRUNK and NOTICE-ENABLE (R127, R135, R148) -/

section
variable {s : State} {q : QueuedRequest} {rest : List QueuedRequest}

theorem State.trunkData_eq (s : State) : s.trunkData =
    [if s.trunk.rx = .dead then 0 else 1, if s.trunk.pause = .running then 0 else 1,
      s.trunk.conditions.zeroExtend 8] ++ numberBytes s.trunk.strays := by
  have link : flagByte s.linkUp = if s.trunk.rx = .dead then 0 else 1 := by
    rw [State.linkUp]
    cases s.trunk.rx <;> rfl
  have pause : pauseCode s.trunk.pause = if s.trunk.pause = .running then 0 else 1 := by
    cases s.trunk.pause <;> rfl
  rw [State.trunkData, link, pause]

theorem exec_readTrunk_ok (running : s.Running) (head : s.Head q rest) (ho : q.op = opReadTrunk) (operands : q.operands = []) :
    exec .readTrunk s = .next ((s.setTrunk { s.trunk with conditions := 0, strays := 0 }).answered q rest .ok s.trunkData) := by
  rw [exec, execReadTrunk, whenRunning_executeOp running head ho (by rw [operands]; rfl)]
  rfl

variable {enables : Byte}

theorem exec_noticeEnable_illegal (running : s.Running) (head : s.Head q rest) (ho : q.op = opNoticeEnable)
    (operands : q.operands = [enables]) (outside : 31 < enables.toNat) :
    exec .noticeEnable s = .next (s.answered q rest .illegal []) := by
  rw [exec, execNoticeEnable, whenRunning_executeOp running head ho (by rw [operands]; rfl), operands]
  exact congrArg Host.Outcome.next (if_pos outside)

theorem exec_noticeEnable_ok (running : s.Running) (head : s.Head q rest) (ho : q.op = opNoticeEnable)
    (operands : q.operands = [enables]) (inRange : enables.toNat ≤ 31) :
    exec .noticeEnable s = .next ((s.enableNotices (enables.truncate 5)).answered q rest .ok [enables]) := by
  rw [exec, execNoticeEnable, whenRunning_executeOp running head ho (by rw [operands]; rfl), operands]
  exact congrArg Host.Outcome.next (if_neg (Nat.not_lt.mpr inRange))

/-- The kinds that a byte of enables leaves on, one bit for each but RESTARTED. -/
theorem kindOn_truncate (enables : Byte) {on : NoticeKind → Bool}
    (bits : on .restarted = true ∧ on .port = enables.getLsbD 0 ∧ on .level = enables.getLsbD 1 ∧
      on .lapse = enables.getLsbD 2 ∧ on .pool = enables.getLsbD 3 ∧ on .trunk = enables.getLsbD 4) :
    on = kindOn (enables.truncate 5) := by
  obtain ⟨restarted, port, level, lapse, pool, trunk⟩ := bits
  funext kind
  cases kind with
  | restarted => exact restarted
  | port => rw [port, kindOn, enableBit]; simp [member]
  | level => rw [level, kindOn, enableBit]; simp [member]
  | lapse => rw [lapse, kindOn, enableBit]; simp [member]
  | pool => rw [pool, kindOn, enableBit]; simp [member]
  | trunk => rw [trunk, kindOn, enableBit]; simp [member]

end

/-- Settles O44: READ-TRUNK's data and what it clears, and the kinds that NOTICE-ENABLE cancels wherever they wait. -/
theorem trunkIsReadAndNoticesEnabled : Obligations.TrunkIsReadAndNoticesEnabled := by
  unfold Obligations.TrunkIsReadAndNoticesEnabled
  refine ⟨fun s q rest running head ho operands => ?read, fun s q rest enables running head ho operands =>
    ⟨exec_noticeEnable_illegal running head ho operands, fun t on inRange bits isAfter => ?enabled⟩⟩
  case read => rw [exec_readTrunk_ok running head ho operands, State.trunkData_eq]
  case enabled =>
    obtain rfl := kindOn_truncate enables bits
    have after : s.enableNotices (enables.truncate 5) = t := by
      rw [isAfter, State.enableNotices, NoticeUnit.withEnables, TrunkTransmitter.cancelIfOff, BitVec.ofNat_toNat]
      refine congrArg (fun cancel => s.setNotices _ |>.setTrunk { s.trunk with tx := { s.trunk.tx with
        sending := s.trunk.tx.sending.map cancel } }) (funext fun f => ?_)
      obtain ⟨granted, bytes⟩ := f
      cases granted with
      | notice frame cancelled => rfl
      | reply => rfl
      | resend l ticket => rfl
      | dispatch l ticket => rfl
    rw [exec_noticeEnable_ok running head ho operands inRange, after]

end Sys2Proof.Machine
end

section
/-!
Requests that are answered without any other effect (R144, R150), and a TRAFFIC reset with the replies it causes (R150).
-/

namespace Sys2Proof.Machine

/-! ### Requests of a fixed operand length (R144) -/

section
variable {s : State} {q : QueuedRequest} {rest : List QueuedRequest}

/-- The operation is executed once its operation code and its operand length are found right. -/
def TestsLength (c : Instr) (op : Byte) (oplen : Nat) : Prop :=
  ∃ effect, ∀ s, exec c s = whenRunning s fun s => s.executeOp op oplen effect

theorem TestsLength.malformed {c : Instr} {op : Byte} {oplen : Nat} (tests : TestsLength c op oplen) (running : s.Running)
    (head : s.Head q rest) (ho : q.op = op) (length : q.operands.length ≠ oplen) :
    exec c s = .next (s.answered q rest .malformed []) := by
  obtain ⟨effect, executes⟩ := tests
  rw [executes, whenRunning_running running, State.executeOp_malformed head ho length, State.answer_of_head]

theorem TestsLength.other {c : Instr} {op : Byte} {oplen : Nat} (tests : TestsLength c op oplen) (running : s.Running)
    (other : ∀ q rest, s.Head q rest → q.op ≠ op) : exec c s = .next s := by
  obtain ⟨effect, executes⟩ := tests
  rw [executes, whenRunning_running running, State.executeOp_other other]

/-- Of the operations of a fixed length only RESET, which two commands share, has its length tested otherwise. -/
theorem testsLength_of_mem {x : Instr × Byte × Nat} (mem : x ∈ fixedOperations) :
    TestsLength x.1 x.2.1 x.2.2 ∨ x = (.resetTraffic, 0x15, 1) ∨ x = (.resetFull, 0x15, 1) := by
  simp only [fixedOperations, List.mem_append, List.mem_cons, List.not_mem_nil, or_false] at mem
  rcases mem with (rfl | rfl | rfl | rfl | rfl | rfl | rfl | rfl | rfl | rfl) |
    (rfl | rfl | rfl | rfl | rfl | rfl | rfl | rfl | rfl | isReset)
  iterate 19 exact .inl ⟨_, fun _ => rfl⟩
  exact .inr isReset

/-! ### RESET that resets nothing (R144, R150) -/

theorem isReset_iff {scope : Byte} : isReset scope q = true ↔ q.op = opReset ∧ q.operands = [scope] := by
  rw [isReset, Bool.and_eq_true, beq_iff_eq, beq_iff_eq]

theorem State.answerBadReset_of_head (s : State) (q : QueuedRequest) (rest : List QueuedRequest) :
    (s.setManagement { s.management with queue := rest }).answerBadReset q =
      s.answered q rest (if q.operands.length = 1 then .illegal else .malformed) [] := by
  rw [State.answerBadReset]
  split_ifs
  · rfl
  · rfl

/-- A RESET whose operands name neither scope is answered by either command. -/
theorem exec_badReset (running : s.Running) (head : s.Head q rest) (ho : q.op = opReset)
    (traffic : q.operands ≠ [scopeTraffic]) (full : q.operands ≠ [scopeFull]) :
    exec .resetTraffic s = .next (s.answered q rest (if q.operands.length = 1 then .illegal else .malformed) []) ∧
    exec .resetFull s = .next (s.answered q rest (if q.operands.length = 1 then .illegal else .malformed) []) := by
  have notTraffic : isReset scopeTraffic q = false := Bool.eq_false_iff.mpr fun isTraffic => traffic (isReset_iff.mp isTraffic).2
  have notFull : isReset scopeFull q = false := Bool.eq_false_iff.mpr fun isFull => full (isReset_iff.mp isFull).2
  have isOp : (q.op == opReset) = true := beq_iff_eq.mpr ho
  constructor
  · have picked : (q.op == opReset && !isReset scopeFull q) = true := by rw [isOp, notFull]; rfl
    rw [exec, execResetTraffic, whenRunning_running running, State.executeHead_picked head picked, notTraffic,
      if_neg Bool.false_ne_true, State.answerBadReset_of_head]
  · have picked : (q.op == opReset && !isReset scopeTraffic q) = true := by rw [isOp, notTraffic]; rfl
    rw [exec, execResetFull, whenRunning_running running, State.executeHead_picked head picked, notFull,
      if_neg Bool.false_ne_true, State.answerBadReset_of_head]

theorem exec_reset_other (running : s.Running) (other : ∀ q rest, s.Head q rest → q.op ≠ opReset) :
    exec .resetTraffic s = .next s ∧ exec .resetFull s = .next s := by
  have passed : ∀ q rest, s.management.queue = q :: rest → ∀ x, (q.op == opReset && x) = false := fun q rest head x => by
    rw [beq_eq_false_iff_ne.mpr (other q rest head), Bool.false_and]
  constructor
  · rw [exec, execResetTraffic, whenRunning_running running, State.executeHead_other fun q rest head => passed q rest head _]
  · rw [exec, execResetFull, whenRunning_running running, State.executeHead_other fun q rest head => passed q rest head _]

/-! ### Operation codes that name no operation (R144) -/

theorem opUnknown_iff {op : Byte} : opUnknown op = true ↔ op = 0 ∨ 0x15 < op.toNat := by
  rw [opUnknown, Bool.or_eq_true, beq_iff_eq, decide_eq_true_eq]

theorem exec_unsupportedOp_head (running : s.Running) (head : s.Head q rest) (unknown : opUnknown q.op = true) :
    exec .unsupportedOp s = .next (s.answered q rest .unsupported []) := by
  rw [exec, execUnsupportedOp, whenRunning_running running,
    State.executeHead_picked (picks := fun q => opUnknown q.op) head unknown, State.answer_of_head]

theorem exec_unsupportedOp_other (running : s.Running) (other : ∀ q rest, s.Head q rest → opUnknown q.op = false) :
    exec .unsupportedOp s = .next s := by
  rw [exec, execUnsupportedOp, whenRunning_running running,
    State.executeHead_other (picks := fun q => opUnknown q.op) other]

theorem exec_inject_other (running : s.Running) (other : ∀ q rest, s.Head q rest → q.op ≠ opInject) :
    exec .inject s = .next s := by
  rw [exec, execInject, whenRunning_running running,
    State.executeHead_other (picks := fun q => q.op == opInject) fun q rest head =>
      beq_eq_false_iff_ne.mpr (other q rest head)]

end

/-- Settles O38: the tests in their order, each with the one answer it gives, and the operations that the head request is not. -/
theorem badRequestsAreAnsweredAndChangeNothing : Obligations.BadRequestsAreAnsweredAndChangeNothing := by
  unfold Obligations.BadRequestsAreAnsweredAndChangeNothing
  refine ⟨fun s q rest running head => ⟨fun unknown => exec_unsupportedOp_head running head (opUnknown_iff.mpr unknown),
      fun x mem ho length => ?malformed, fun ho length => ?inject, fun scope ho operands notTraffic notFull => ?scope⟩,
    fun s running => ⟨fun x mem other => ?other, exec_inject_other running, fun known => ?known⟩⟩
  case malformed =>
    have badReset (isReset : q.op = opReset) (notOne : q.operands.length ≠ 1) := exec_badReset running head isReset
      (fun operands => notOne (by rw [operands]; rfl)) (fun operands => notOne (by rw [operands]; rfl))
    rcases testsLength_of_mem mem with tests | rfl | rfl
    · exact tests.malformed running head ho length
    · rw [(badReset ho length).1, if_neg length]
    · rw [(badReset ho length).2, if_neg length]
  case inject =>
    refine exec_inject_malformed running head ho (Bool.eq_false_iff.mpr fun legal => ?_)
    obtain ⟨six, size, fits⟩ := injectLengthOk_iff.mp legal
    omega
  case scope =>
    have isOne : q.operands.length = 1 := by rw [operands]; rfl
    have answers := exec_badReset running head ho (fun same => notTraffic (List.singleton_inj.mp (operands.symm.trans same)))
      (fun same => notFull (List.singleton_inj.mp (operands.symm.trans same)))
    rw [if_pos isOne] at answers
    exact answers
  case other =>
    rcases testsLength_of_mem mem with tests | rfl | rfl
    · exact tests.other running other
    · exact (exec_reset_other running other).1
    · exact (exec_reset_other running other).2
  case known =>
    refine exec_unsupportedOp_other running fun q rest head => Bool.eq_false_iff.mpr fun unknown => ?_
    obtain ⟨nonzero, known⟩ := known q rest head
    exact (opUnknown_iff.mp unknown).elim nonzero (by omega)

/-! ### A TRAFFIC reset (R150) -/

section
variable (s : State) (rest : List QueuedRequest)

/-- State with the request queue replaced. -/
def State.withQueue : State := s.setManagement { s.management with queue := rest }

theorem State.answerConflict_withQueue (r : Option PendingReply) :
    (s.withQueue rest).answerConflict r = (s.answerConflict r).withQueue rest := by
  cases r <;> rfl

theorem State.landSwap_withQueue : (s.withQueue rest).landSwap = s.landSwap.withQueue rest := by
  have table : (s.withQueue rest).table = s.table := rfl
  have classifier : (s.withQueue rest).classifier = s.classifier := rfl
  unfold State.landSwap
  rw [table, classifier]
  cases s.table.operation with
  | swapPending r =>
    simp only
    split_ifs
    · rfl
    · rfl
  | idle => rfl
  | copying progress r => rfl

/-- A TRAFFIC reset reads nothing of the request queue. -/
theorem State.trafficReset_withQueue : (s.withQueue rest).trafficReset = s.trafficReset.withQueue rest := by
  have flight : (s.withQueue rest).classifier = s.classifier := rfl
  have effects (u : State) : (u.withQueue rest).trafficEffects = u.trafficEffects.withQueue rest := rfl
  rw [State.trafficReset, flight, State.answerConflict_withQueue, State.answerConflict_withQueue, effects,
    State.landSwap_withQueue, State.trafficReset]

theorem State.answer_withQueue (q : QueuedRequest) (status : Status) (data : List Byte) :
    (s.withQueue rest).answer q status data = s.answered q rest status data :=
  State.answer_of_head s q rest status data

/-- The answers to abandoned INJECT requests and the units' effects meet in no unit but the trunk, in different parts of it. -/
theorem State.trafficEffects_answerConflict (r : Option PendingReply) :
    (s.answerConflict r).trafficEffects = s.trafficEffects.answerConflict r := by
  cases r <;> rfl

theorem State.answerConflict_eq (r : Option PendingReply) :
    s.answerConflict r = (r.map fun r => s.repliedLater r 0x12 .conflict []).getD s := by
  cases r <;> rfl

theorem State.trafficEffects_eq : s.trafficEffects = { s with
    ports := tabulate fun p => { look s.ports p with received := [], releases := [], headMarked := false }
    classifier := { inFlight := none, pointer := 0, injection := none }
    conditions := tabulate fun _ => clearedSlot
    levelUnit := { s.levelUnit with
      levels := tabulate fun l => { s.levelAt l with queue := [] }, inTransmission := none, lowWater := 128 }
    service := { s.service with inService := tabulate fun _ => none, ticketCounter := 0 }
    trunk := { s.trunk with pause := .running } } := by
  rw [State.trafficEffects]
  simp only [tabulate_const]
  rfl

end

section
variable {s : State} {q : QueuedRequest} {rest : List QueuedRequest}

theorem exec_resetTraffic_traffic (running : s.Running) (head : s.Head q rest) (ho : q.op = opReset)
    (operands : q.operands = [scopeTraffic]) :
    exec .resetTraffic s = .next (s.trafficReset.answered q rest .ok []) := by
  have isTraffic : isReset scopeTraffic q = true := isReset_iff.mpr ⟨ho, operands⟩
  have picked : (q.op == opReset && !isReset scopeFull q) = true := by rw [isReset, ho, operands]; rfl
  rw [exec, execResetTraffic, whenRunning_running running, State.executeHead_picked head picked, if_pos isTraffic]
  exact congrArg Host.Outcome.next ((congrArg (State.answer · q .ok []) (State.trafficReset_withQueue s rest)).trans
    (State.answer_withQueue _ rest q .ok []))

/-- The swap that a TRAFFIC reset lets take effect is the last of its replies. -/
theorem State.trafficReset_eq {second : State}
    (isSecond : (s.trafficEffects.answerConflict (s.classifier.inFlight.bind FlightEvent.reply)).answerConflict
      (s.classifier.injection.map InjectedEvent.reply) = second) : s.trafficReset = second.landSwap := by
  rw [State.trafficReset, State.trafficEffects_answerConflict, State.trafficEffects_answerConflict, isSecond]

end

/-- Settles O47: the units' effects, the two answers to abandoned INJECT requests, and then the swap that nothing holds back any
more. -/
theorem trafficResetDiscardsTheTraffic : Obligations.TrafficResetDiscardsTheTraffic := by
  unfold Obligations.TrafficResetDiscardsTheTraffic
  intro s cleared first second swapped q rest running head ho operands isCleared isFirst isSecond isSwapped
  rw [← State.trafficEffects_eq] at isCleared
  rw [← State.answerConflict_eq] at isFirst isSecond
  subst isCleared isFirst
  obtain ⟨pending, still⟩ := isSwapped
  have table : second.table = s.table := by rw [isSecond]; simp [State.trafficEffects]
  have idle : second.classifier.inFlight = none := by rw [isSecond]; simp [State.trafficEffects, Classifier.initial]
  have lands : second.landSwap = swapped := by
    cases operation : s.table.operation with
    | swapPending r =>
      rw [State.landSwap_pending ((congrArg TableStore.operation table).trans operation) idle, table, pending r operation]
    | idle =>
      rw [still (by rw [operation]; rfl), State.landSwap_of_busy (.inl (by rw [table, operation]; rfl))]
    | copying progress r =>
      rw [still (by rw [operation]; rfl), State.landSwap_of_busy (.inl (by rw [table, operation]; rfl))]
  rw [exec_resetTraffic_traffic running head ho operands, State.trafficReset_eq isSecond.symm, lands]

end Sys2Proof.Machine
end

section
/-!
Definitions: the checks in their order and the bytes that give a definition back (R41, R42, R74, section 10.5.1), and the writes
to the STANDBY bank (R41 to R43, R73, R146).
-/

namespace Sys2Proof.Machine

/-! ### The first failed check (R41) -/

open Classical in
/-- The reason of the first check that fails, when the first one's reason is the number given. -/
noncomputable def firstReason : Nat → List Prop → Option Byte
  | _, [] => none
  | reason, failed :: later => if failed then some (BitVec.ofNat 8 reason) else firstReason (reason + 1) later

theorem firstReason_eq_none_iff : ∀ (reason : Nat) (checks : List Prop),
    firstReason reason checks = none ↔ ∀ failed ∈ checks, ¬failed
  | _, [] => by simp [firstReason]
  | reason, failed :: later => by
    rw [List.forall_mem_cons, ← firstReason_eq_none_iff (reason + 1) later, firstReason]
    by_cases fails : failed
    · rw [if_pos fails]
      simp [fails]
    · rw [if_neg fails]
      simp [fails]

theorem firstReason_eq_some : ∀ {reason : Nat} {checks : List Prop} {n : Nat} (h : n < checks.length), checks[n] →
    (∀ (m : Nat) (before : m < n), ¬checks[m]) → firstReason reason checks = some (BitVec.ofNat 8 (reason + n))
  | _, _ :: _, 0, _, fails, _ => if_pos fails
  | reason, failed :: later, n + 1, h, fails, first => by
    have notFirst : ¬failed := first 0 (Nat.zero_lt_succ n)
    have rest := firstReason_eq_some (reason := reason + 1) (Nat.lt_of_succ_lt_succ h) fails fun m before =>
      first (m + 1) (Nat.succ_lt_succ before)
    rw [firstReason, if_neg notFirst, rest, Nat.add_assoc, Nat.add_comm 1 n]

/-- A test is a check by the name of its condition. -/
theorem firstReason_cons {reason : Nat} {failed c : Prop} [Decidable c] {later : List Prop} {rest : Option Byte}
    (same : c ↔ failed) (isRest : rest = firstReason (reason + 1) later) :
    (if c then some (BitVec.ofNat 8 reason) else rest) = firstReason reason (failed :: later) := by
  rw [firstReason, isRest]
  by_cases fails : failed
  · rw [if_pos (same.mpr fails), if_pos fails]
  · rw [if_neg (fails ∘ same.mp), if_neg fails]

theorem firstReason_false (reason : Nat) (later : List Prop) :
    firstReason reason (False :: later) = firstReason (reason + 1) later :=
  if_neg not_false

section
variable (index ports nv nm cvh cvl cmh cml conds action level slot : Byte)

/-- The checks of a definition in the order of their reasons; the third is WRITE-DEFAULT's (R41, R146). -/
def definitionChecks : List Prop :=
  [63 < index.toNat, action.toNat < 1 ∨ 5 < action.toNat, False, ports.msb = true, conds.toNat ≥ 8,
    nv &&& ~~~nm ≠ 0 ∨ (cvh &&& ~~~cmh ≠ 0 ∨ cvl &&& ~~~cml ≠ 0),
    (action = 1 ∨ action = 2 ∨ action = 3) ∧ 15 < level.toNat, action = 3 ∧ 31 < slot.toNat,
    action = 3 ∧ conds.getLsbD 0 = true]

theorem joinBytes_eq_zero_iff (hi lo : Byte) : joinBytes hi lo = 0 ↔ hi = 0 ∧ lo = 0 := by
  constructor
  · intro isZero
    exact ⟨by rw [← hiByte_join hi lo, isZero]; rfl, by rw [← loByte_join hi lo, isZero]; rfl⟩
  · rintro ⟨rfl, rfl⟩
    rfl

theorem joinBytes_masked : joinBytes cvh cvl &&& ~~~(joinBytes cmh cml) = joinBytes (cvh &&& ~~~cmh) (cvl &&& ~~~cml) := by
  have inverted : ~~~(joinBytes cmh cml) = joinBytes (~~~cmh) (~~~cml) := BitVec.not_append
  rw [inverted]
  exact BitVec.and_append

theorem joinBytes_masked_ne_zero : joinBytes cvh cvl &&& ~~~(joinBytes cmh cml) ≠ 0 ↔
    cvh &&& ~~~cmh ≠ 0 ∨ cvl &&& ~~~cml ≠ 0 := by
  rw [joinBytes_masked, Ne, joinBytes_eq_zero_iff, not_and_or]

theorem writeEntryReason_eq :
    writeEntryReason [index, ports, nv, nm, cvh, cvl, cmh, cml, conds, action, level, slot] =
      firstReason 1 (definitionChecks index ports nv nm cvh cvl cmh cml conds action level slot) := by
  have actionCheck : action = 0 ∨ 5 < action.toNat ↔ action.toNat < 1 ∨ 5 < action.toNat := by bv_omega
  have portsCheck : 127 < ports.toNat ↔ ports.msb = true := by
    rw [BitVec.msb_eq_decide, decide_eq_true_eq]
    omega
  have condsCheck : 7 < conds.toNat ↔ conds.toNat ≥ 8 := by omega
  have maskCheck := or_congr_right (a := nv &&& ~~~nm ≠ 0) (joinBytes_masked_ne_zero cvh cvl cmh cml)
  have levelCheck : usesLevel action = true ∧ 15 < level.toNat ↔
      (action = 1 ∨ action = 2 ∨ action = 3) ∧ 15 < level.toNat := by
    simp only [usesLevel, Bool.or_eq_true, beq_iff_eq, or_assoc]
  refine firstReason_cons Iff.rfl (firstReason_cons actionCheck ?_)
  rw [firstReason_false]
  refine firstReason_cons portsCheck (firstReason_cons condsCheck (firstReason_cons maskCheck ?_))
  exact firstReason_cons levelCheck (firstReason_cons Iff.rfl (firstReason_cons Iff.rfl rfl))

end

/-! ### Definitions read back (R74, section 10.5.1) -/

theorem setWidth_setWidth_of_lt {w : Nat} {b : Byte} (fits : b.toNat < 2 ^ w) : (b.truncate w).zeroExtend 8 = b := by
  refine BitVec.eq_of_toNat_eq ?_
  rw [BitVec.truncate_eq_setWidth, BitVec.zeroExtend_eq_setWidth, BitVec.toNat_setWidth, BitVec.toNat_setWidth,
    Nat.mod_eq_of_lt fits]
  exact Nat.mod_eq_of_lt b.isLt

theorem levelOf_val {b : Byte} (fits : b.toNat ≤ 15) : (levelOf b).val = b.toNat :=
  Nat.mod_eq_of_lt (by omega)

theorem slotOf_val {b : Byte} (fits : b.toNat ≤ 31) : (slotOf b).val = b.toNat :=
  Nat.mod_eq_of_lt (by omega)

theorem entryOf_val {b : Byte} (fits : b.toNat ≤ 63) : (entryOf b).val = b.toNat :=
  Nat.mod_eq_of_lt (by omega)

/-- The five legal actions. -/
theorem action_cases {action : Byte} (legal : ¬(action.toNat < 1 ∨ 5 < action.toNat)) :
    action = 1 ∨ action = 2 ∨ action = 3 ∨ action = 4 ∨ action = 5 := by
  bv_omega

theorem actionOf_bytes {action level slot : Byte} (legal : ¬(action.toNat < 1 ∨ 5 < action.toNat))
    (levelFits : ¬((action = 1 ∨ action = 2 ∨ action = 3) ∧ 15 < level.toNat)) (slotFits : ¬(action = 3 ∧ 31 < slot.toNat)) :
    actionCode (actionOf action level slot) = action ∧
    actionLevelCode (actionOf action level slot) = (if action = 4 ∨ action = 5 then 0xFF else level) ∧
    actionSlotCode (actionOf action level slot) = if action = 3 then slot else 0xFF := by
  rcases action_cases legal with rfl | rfl | rfl | rfl | rfl
  · exact ⟨rfl, byteOf_of_eq_toNat (levelOf_val (by simpa using levelFits)), rfl⟩
  · exact ⟨rfl, byteOf_of_eq_toNat (levelOf_val (by simpa using levelFits)), rfl⟩
  · exact ⟨rfl, byteOf_of_eq_toNat (levelOf_val (by simpa using levelFits)),
      byteOf_of_eq_toNat (slotOf_val (by simpa using slotFits))⟩
  · exact ⟨rfl, rfl, rfl⟩
  · exact ⟨rfl, rfl, rfl⟩

/-- Twelve operands, one by one. -/
theorem operands_of_length {ops : List Byte} (length : ops.length = 12) :
    ∃ index ports nv nm cvh cvl cmh cml conds action level slot,
      ops = [index, ports, nv, nm, cvh, cvl, cmh, cml, conds, action, level, slot] := by
  match ops, length with
  | [index, ports, nv, nm, cvh, cvl, cmh, cml, conds, action, level, slot], _ =>
    exact ⟨index, ports, nv, nm, cvh, cvl, cmh, cml, conds, action, level, slot, rfl⟩

/-- A legal definition's bytes are the operands it was made of, with absent fields as FFh. -/
theorem definitionBytes_definitionOf {ops : List Byte} (length : ops.length = 12) (legal : writeEntryReason ops = none) :
    definitionBytes (definitionOf ops) = 1 :: (ops.drop 1).take 9 ++
      [if operand ops 9 = 4 ∨ operand ops 9 = 5 then 0xFF else operand ops 10,
       if operand ops 9 = 3 then operand ops 11 else 0xFF] := by
  obtain ⟨index, ports, nv, nm, cvh, cvl, cmh, cml, conds, action, level, slot, rfl⟩ := operands_of_length length
  rw [writeEntryReason_eq, firstReason_eq_none_iff] at legal
  simp only [definitionChecks, List.forall_mem_cons] at legal
  obtain ⟨-, actionLegal, -, portsLegal, condsLegal, -, levelLegal, slotLegal, -⟩ := legal
  obtain ⟨code, levelCode, slotCode⟩ := actionOf_bytes actionLegal levelLegal slotLegal
  have portsFit : ports.toNat < 2 ^ 7 := by
    rw [BitVec.msb_eq_decide, decide_eq_true_eq] at portsLegal
    omega
  have portsByte : (ports.truncate 7).zeroExtend 8 = ports := setWidth_setWidth_of_lt portsFit
  have condsByte : (conds.truncate 3).zeroExtend 8 = conds := setWidth_setWidth_of_lt (Nat.not_le.mp condsLegal)
  simp only [definitionBytes, definitionOf, operand, List.getD_cons_succ, List.getD_cons_zero, portsByte, condsByte, code,
    levelCode, slotCode, numberBytes, hiByte_join, loByte_join]
  rfl

/-- Settles O34: the chain of checks is the search for the first one that fails, and a definition that passes them all fits the
fields it is kept in. -/
theorem definitionsAreCheckedAndReadBack : Obligations.DefinitionsAreCheckedAndReadBack := by
  unfold Obligations.DefinitionsAreCheckedAndReadBack
  refine ⟨?checked, fun ops e length legal isDefinition => ?readBack, rfl, fun d => ?defaultRecord⟩
  case checked =>
    rintro index ports nv nm cvh cvl cmh cml conds action level slot ops rfl checks
    rw [writeEntryReason_eq]
    refine ⟨fun n fails first => ?_, fun none => ?_⟩
    · have reason := firstReason_eq_some (reason := 1) (n := n.val) (checks := checks) n.isLt fails fun m before =>
        first ⟨m, by omega⟩ before
      rw [Nat.add_comm] at reason
      exact reason
    · refine (firstReason_eq_none_iff 1 checks).mpr fun failed mem => ?_
      obtain ⟨n, bound, rfl⟩ := List.mem_iff_getElem.mp mem
      exact none ⟨n, bound⟩
  case readBack =>
    rw [entryBytes, isDefinition, definitionBytes_definitionOf length legal]
  case defaultRecord =>
    rw [defaultRecordBytes]
    cases d.action <;> rfl

end Sys2Proof.Machine
end

section
/-!
The writes that reach the STANDBY bank: WRITE-ENTRY, CLEAR-ENTRY and WRITE-DEFAULT (R41 to R43, R73, R146).
-/

namespace Sys2Proof.Machine

/-! ### A write whose checks have passed (R73) -/

section
variable {s : State} {q : QueuedRequest} {rest : List QueuedRequest}

theorem State.writeStandby_idle (idle : s.table.operation = .idle) (edit : Bank → Bank) (data : List Byte) :
    (s.setManagement { s.management with queue := rest }).writeStandby q edit data =
      (({ s with table := s.table.setBank s.table.standby (edit (s.table.bank s.table.standby)) } : State).answered q rest .ok
        ([letter s.table.standby, s.table.generation] ++ data)) := by
  have isIdle : (s.setManagement { s.management with queue := rest }).table.operationIdle = true :=
    (TableStore.operationIdle_iff s.table).mpr idle
  rw [State.writeStandby, if_pos isIdle, bankCode_eq_letter]
  rfl

theorem State.writeStandby_busy (busy : s.table.operation ≠ .idle) (edit : Bank → Bank) (data : List Byte) :
    (s.setManagement { s.management with queue := rest }).writeStandby q edit data = s.answered q rest .busy [] := by
  have isBusy : ¬(s.setManagement { s.management with queue := rest }).table.operationIdle = true :=
    fun idle => busy ((TableStore.operationIdle_iff s.table).mp idle)
  rw [State.writeStandby, if_neg isBusy, State.answer_of_head]

/-! ### WRITE-ENTRY (R41, R42) -/

theorem exec_writeEntry_illegal (running : s.Running) (head : s.Head q rest) (ho : q.op = opWriteEntry)
    (length : q.operands.length = 12) {reason : Byte} (illegal : writeEntryReason q.operands = some reason) :
    exec .writeEntry s = .next (s.answered q rest .illegal [reason]) := by
  rw [exec, execWriteEntry, whenRunning_executeOp running head ho length, illegal]
  exact congrArg Host.Outcome.next (State.answer_of_head s q rest .illegal [reason])

theorem exec_writeEntry_legal (running : s.Running) (head : s.Head q rest) (ho : q.op = opWriteEntry)
    (length : q.operands.length = 12) (legal : writeEntryReason q.operands = none) :
    exec .writeEntry s = .next ((s.setManagement { s.management with queue := rest }).writeStandby q
      (fun b => b.setEntry (entryOf (operand q.operands 0)) (some (definitionOf q.operands))) [operand q.operands 0]) := by
  rw [exec, execWriteEntry, whenRunning_executeOp running head ho length, legal]

/-- A legal WRITE-ENTRY names an entry. -/
theorem entry_of_legal {ops : List Byte} (legal : writeEntryReason ops = none) :
    (entryOf (operand ops 0)).val = (operand ops 0).toNat := by
  refine entryOf_val (Nat.not_lt.mp fun outside => ?_)
  rw [writeEntryReason, if_pos outside] at legal
  cases legal

/-! ### CLEAR-ENTRY (R43) -/

section
variable {index : Byte}

theorem exec_clearEntry_illegal (running : s.Running) (head : s.Head q rest) (ho : q.op = opClearEntry)
    (operands : q.operands = [index]) (outside : 63 < index.toNat) :
    exec .clearEntry s = .next (s.answered q rest .illegal [1]) := by
  rw [exec, execClearEntry, whenRunning_executeOp running head ho (by rw [operands]; rfl), operands]
  exact congrArg Host.Outcome.next (if_pos outside)

theorem exec_clearEntry_legal (running : s.Running) (head : s.Head q rest) (ho : q.op = opClearEntry)
    (operands : q.operands = [index]) (inRange : index.toNat ≤ 63) :
    exec .clearEntry s = .next ((s.setManagement { s.management with queue := rest }).writeStandby q
      (fun b => b.setEntry (entryOf index) none) [index]) := by
  rw [exec, execClearEntry, whenRunning_executeOp running head ho (by rw [operands]; rfl), operands]
  exact congrArg Host.Outcome.next (if_neg (Nat.not_lt.mpr inRange))

end

/-! ### WRITE-DEFAULT (R41, R42) -/

section
variable {action level : Byte}

theorem exec_writeDefault_illegal (running : s.Running) (head : s.Head q rest) (ho : q.op = opWriteDefault)
    (operands : q.operands = [action, level]) {reason : Byte} (illegal : writeDefaultReason [action, level] = some reason) :
    exec .writeDefault s = .next (s.answered q rest .illegal [reason]) := by
  rw [exec, execWriteDefault, whenRunning_executeOp running head ho (by rw [operands]; rfl), operands, illegal]
  exact congrArg Host.Outcome.next (State.answer_of_head s q rest .illegal [reason])

theorem exec_writeDefault_legal (running : s.Running) (head : s.Head q rest) (ho : q.op = opWriteDefault)
    (operands : q.operands = [action, level]) (legal : writeDefaultReason [action, level] = none) :
    exec .writeDefault s = .next ((s.setManagement { s.management with queue := rest }).writeStandby q
      (fun b => { b with defaultRecord := defaultRecordOf [action, level] }) []) := by
  rw [exec, execWriteDefault, whenRunning_executeOp running head ho (by rw [operands]; rfl), operands, legal]

theorem writeDefaultReason_action (illegal : action.toNat < 1 ∨ 5 < action.toNat) :
    writeDefaultReason [action, level] = some 2 :=
  if_pos (show action = 0 ∨ 5 < action.toNat by bv_omega)

theorem writeDefaultReason_use (illegal : action = 2 ∨ action = 3) : writeDefaultReason [action, level] = some 3 := by
  rcases illegal with rfl | rfl
  · rfl
  · rfl

theorem writeDefaultReason_level (outside : 15 < level.toNat) : writeDefaultReason [1, level] = some 7 :=
  if_pos (⟨rfl, outside⟩ : (1 : Byte) = 1 ∧ 15 < level.toNat)

theorem writeDefaultReason_none (legal : action = 1 ∧ level.toNat ≤ 15 ∨ action = 4 ∨ action = 5) :
    writeDefaultReason [action, level] = none := by
  rcases legal with ⟨rfl, inRange⟩ | rfl | rfl
  · exact if_neg fun outside : (1 : Byte) = 1 ∧ 15 < level.toNat => absurd outside.2 (Nat.not_lt.mpr inRange)
  · rfl
  · rfl

/-- The default record that a legal WRITE-DEFAULT stores, by the action it names. -/
theorem defaultRecordOf_eq {d : DefaultRecord} (isAction : action = 1 ∧ d.action = .forward ∧ d.level.val = level.toNat ∨
      action = 4 ∧ d.action = .count ∧ d.level = 0 ∨ action = 5 ∧ d.action = .discard ∧ d.level = 0) (hits : d.hits = 0) :
    defaultRecordOf [action, level] = d := by
  obtain ⟨kind, place, count⟩ := d
  obtain rfl : count = 0 := hits
  rcases isAction with ⟨rfl, rfl, isLevel⟩ | ⟨rfl, rfl, rfl⟩ | ⟨rfl, rfl, rfl⟩
  · have named : levelOf level = place := Fin.ext ((levelOf_val (by have := place.isLt; omega)).trans isLevel.symm)
    rw [← named]
    rfl
  · rfl
  · rfl

theorem writeDefault_legal_of_record {d : DefaultRecord} (isAction : action = 1 ∧ d.action = .forward ∧ d.level.val = level.toNat ∨
      action = 4 ∧ d.action = .count ∧ d.level = 0 ∨ action = 5 ∧ d.action = .discard ∧ d.level = 0) :
    action = 1 ∧ level.toNat ≤ 15 ∨ action = 4 ∨ action = 5 := by
  rcases isAction with ⟨isForward, -, isLevel⟩ | ⟨isCount, -⟩ | ⟨isDiscard, -⟩
  · have bound := d.level.isLt
    exact .inl ⟨isForward, by omega⟩
  · exact .inr (.inl isCount)
  · exact .inr (.inr isDiscard)

end

end

/-- Settles O35: each write's checks first, then the bank-operation state, and then the edit of the STANDBY bank. -/
theorem writesReachTheStandbyBankOnly : Obligations.WritesReachTheStandbyBankOnly := by
  unfold Obligations.WritesReachTheStandbyBankOnly
  intro s q rest running head
  refine ⟨fun ho length => ⟨fun reason => exec_writeEntry_illegal running head ho length, fun legal busy => ?entryBusy,
      fun legal idle => ?entry⟩,
    fun index ho operands => ⟨exec_clearEntry_illegal running head ho operands, fun inRange busy => ?clearBusy,
      fun i isIndex idle => ?clear⟩,
    fun action level ho operands => ⟨fun illegal => ?action, fun illegal => ?use, fun forward outside => ?level,
      fun legal busy => ?defaultBusy, fun d idle isAction hits => ?default⟩⟩
  case entryBusy => rw [exec_writeEntry_legal running head ho length legal, State.writeStandby_busy busy]
  case entry =>
    refine ⟨_, entryOf (operand q.operands 0), entry_of_legal legal, ?_, rfl⟩
    rw [exec_writeEntry_legal running head ho length legal, State.writeStandby_idle idle]
    rfl
  case clearBusy => rw [exec_clearEntry_legal running head ho operands inRange, State.writeStandby_busy busy]
  case clear =>
    have inRange : index.toNat ≤ 63 := by
      have bound : i.val < 64 := i.isLt
      omega
    have named : entryOf index = i := Fin.ext ((entryOf_val inRange).trans isIndex.symm)
    rw [exec_clearEntry_legal running head ho operands inRange, State.writeStandby_idle idle, named]
    rfl
  case action => exact exec_writeDefault_illegal running head ho operands (writeDefaultReason_action illegal)
  case use => exact exec_writeDefault_illegal running head ho operands (writeDefaultReason_use illegal)
  case level =>
    subst forward
    exact exec_writeDefault_illegal running head ho operands (writeDefaultReason_level outside)
  case defaultBusy =>
    rw [exec_writeDefault_legal running head ho operands (writeDefaultReason_none legal), State.writeStandby_busy busy]
  case default =>
    rw [exec_writeDefault_legal running head ho operands (writeDefaultReason_none (writeDefault_legal_of_record isAction)),
      State.writeStandby_idle idle, defaultRecordOf_eq isAction hits]
    rfl

end Sys2Proof.Machine
end

section
/-!
Waiting requesters: no command but a start, a disabling WRITE-PORT or a reset takes a waiting event away, and the arbiter's pointer
brings every waiting requester nearer with every start that is not its own (R49, R50).
-/

namespace Sys2Proof.Machine

/-! ### A port's waiting event (R16) -/

/-- An event waits in a port's receive queue. -/
def State.HasEvent (p : PortId) (s : State) : Prop := (look s.ports p).received ≠ []

section
variable {s t : State} {p : PortId} (h : s.HasEvent p)
include h

theorem State.HasEvent.of_ports (same : t.ports = s.ports) : t.HasEvent p := by
  rw [State.HasEvent, same]
  exact h

theorem State.HasEvent.setPort {q : PortId} {x : FieldPort} (kept : (look s.ports q).received ≠ [] → x.received ≠ []) :
    (s.setPort q x).HasEvent p := by
  rw [State.HasEvent, State.setPort_ports, look_put]
  split_ifs with same
  · subst same
    exact kept h
  · exact h

theorem State.HasEvent.raisePort (q : PortId) (c : PortCondition) : (s.raisePort q c).HasEvent p := by
  rw [State.HasEvent, State.raisePort_look]
  exact h

theorem State.HasEvent.requestRelease (o : Requester) (q : ReleaseRequest) : (s.requestRelease o q).HasEvent p :=
  State.requestRelease_keeps o q h (fun _ _ _ => h.setPort id) fun q => h.raisePort q .releaseLost

end

theorem hasEvent_levelsUnread (p : PortId) : LevelsUnread (State.HasEvent p) :=
  ⟨fun _ _ h => h, fun _ _ h => h, fun _ _ h => h, fun _ h => h, fun _ _ _ h => h, fun _ o q h => h.requestRelease o q⟩

section
variable {s t : State} {p : PortId} (h : s.HasEvent p)
include h

theorem State.HasEvent.portVerdict (q : PortId) (v : Verdict) : (s.portVerdict q v).HasEvent p :=
  State.portVerdict_keeps h (fun c => h.raisePort q c) fun _ _ _ _ _ _ => h.setPort fun _ => by simp

theorem State.HasEvent.fieldArrival (q : PortId) (symbols : List Symbol) : (s.fieldArrival q symbols).HasEvent p :=
  State.fieldArrival_keeps symbols (fun _ _ => h.setPort id) fun _ v _ hu => hu.portVerdict q v

theorem State.HasEvent.raiseTrunk (c : TrunkCondition) : (s.raiseTrunk c).HasEvent p :=
  h.of_ports ((raiseTrunk_touches s c).ports (by decide))

theorem State.HasEvent.takeRequest (tag op : Byte) (operands : List Byte) : (s.takeRequest tag op operands).HasEvent p := by
  unfold State.takeRequest State.refuse
  split
  · exact h
  · split
    · exact h.raiseTrunk .mgmtDrop
    · exact h

theorem State.HasEvent.trunkArrival (symbols : List Symbol) : (s.trunkArrival symbols).HasEvent p :=
  State.trunkArrival_keeps symbols (fun _ _ => h) fun u v _ hu =>
    State.trunkVerdict_keeps v hu (fun c => hu.raiseTrunk c) (fun l r o _ => (hasEvent_levelsUnread p).retire hu l r o)
      (State.HasEvent.raiseTrunk (s := u.setTrunk { u.trunk with strays := satInc u.trunk.strays }) hu .stray) (fun _ => hu)
      hu.takeRequest

theorem State.HasEvent.fieldLive (q : PortId) : (s.fieldLive q).HasEvent p := by
  have live : (s.withPortRx q .hunt).HasEvent p := h.setPort id
  by_cases dead : (look s.ports q).rx = .dead
  · rw [State.fieldLive_of_dead dead]
    split_ifs
    · exact live.raisePort q .linkChange
    · exact live
  · rw [State.fieldLive_of_live dead]
    exact h

theorem State.HasEvent.fieldDead (q : PortId) : (s.fieldDead q).HasEvent p := by
  by_cases dead : (look s.ports q).rx = .dead
  · rw [State.fieldDead_of_dead dead]
    exact h
  · cases running : s.resetHeld with
    | true =>
      rw [State.fieldDead_of_held running]
      exact h.setPort id
    | false =>
      have down : (s.portDown q).HasEvent p := h.setPort id
      have cut : ((s.portDown q).portVerdict? q (look s.ports q).rx.goDead.2).HasEvent p := by
        cases (look s.ports q).rx.goDead.2 with
        | none => exact down
        | some v => exact down.portVerdict q v
      rw [State.fieldDead_of_live running dead]
      split_ifs
      · exact cut.raisePort q .linkChange
      · exact cut

theorem State.HasEvent.trunkDead : s.trunkDead.HasEvent p := by
  have down : s.trunkDown.HasEvent p := h.of_ports (s.trunkDown_touches.ports (by decide))
  refine State.trunkDead_keeps h (fun _ => h) (fun _ _ _ => down) fun _ _ g _ => ?_
  have aborted : s.trunkDown.wireAborted.HasEvent p := down
  exact State.ownAbort_keeps aborted (fun _ _ => aborted) (fun _ _ _ _ _ => aborted)
    (fun _ r _ _ _ => (hasEvent_levelsUnread p).abortReturn ((hasEvent_levelsUnread p).setService _ _ aborted) r.record)
    (fun _ r _ _ => (hasEvent_levelsUnread p).abortReturn ((hasEvent_levelsUnread p).setLevelUnit _ _ aborted) r)

theorem State.HasEvent.completeFlight (f : FlightEvent) : (s.completeFlight f).HasEvent p := by
  have carried : (s.carriedOut f).HasEvent p :=
    (hasEvent_levelsUnread p).carryOut (fun _ _ _ hu => hu) (s := s.countHit f) h f _
  exact carried.of_ports (s.completeFlight_outside f).1

theorem State.HasEvent.expire (l : LevelId) (r : ServiceRecord) : (s.expire l r).HasEvent p := by
  unfold State.expire
  split_ifs
  · exact h
  · exact (hasEvent_levelsUnread p).retire h l r .lapsed

end

theorem hasEvent_fieldArrival {s t : State} {p : PortId} (h : s.HasEvent p) {q : PortId} {symbols : List Symbol}
    (e : (whenRunning s fun s => s.fieldArrival q symbols) = .next t) : t.HasEvent p :=
  whenRunning_keeps (effect := fun s => s.fieldArrival q symbols) h (fun _ => h.fieldArrival q symbols) e

theorem hasEvent_trunkArrival {s t : State} {p : PortId} (h : s.HasEvent p) {symbols : List Symbol}
    (e : (whenRunning s fun s => s.trunkArrival symbols) = .next t) : t.HasEvent p :=
  whenRunning_keeps (effect := fun s => s.trunkArrival symbols) h (fun _ => h.trunkArrival symbols) e

/-- What a head request does while RESET_N is not held low, answered or carried out. -/
theorem hasEvent_executeOp {s t : State} {p : PortId} (h : s.HasEvent p) {op : Byte} {oplen : Nat}
    {effect : QueuedRequest → State → State} (kept : ∀ q u, u.HasEvent p → (effect q u).HasEvent p)
    (e : (whenRunning s fun s => s.executeOp op oplen effect) = .next t) : t.HasEvent p :=
  whenRunning_keeps h (fun _ => State.executeOp_keeps h (fun _ _ _ => h) fun q rest _ _ _ =>
    kept q (s.setManagement { s.management with queue := rest }) h) e

/-- A port that is enabled after a WRITE-PORT has kept its receive queue (R25). -/
theorem FieldPort.configure_received_of_enabled {port : FieldPort} {enabled notices : Bool}
    (on : (port.configure enabled notices).enabled = true) : (port.configure enabled notices).received = port.received := by
  cases enabled with
  | true => rfl
  | false =>
    cases was : port.enabled with
    | true => simp [FieldPort.configure, FieldPort.disable, was] at on
    | false => simp [FieldPort.configure, was]

section
variable {s t : State} {p : PortId}

theorem execWritePort_hasEvent (h : s.HasEvent p) (e : execWritePort s = .next t) (enabled : (look t.ports p).enabled = true) :
    t.HasEvent p := by
  rw [execWritePort] at e
  refine whenRunning_keeps (P := fun u => (look u.ports p).enabled = true → u.HasEvent p) (fun _ => h) (fun _ => ?_) e enabled
  refine State.executeOp_keeps (P := fun u => (look u.ports p).enabled = true → u.HasEvent p) (fun _ => h)
    (fun _ _ _ _ => h) fun q rest _ _ _ => ?_
  split
  · next port on notices _ _ _ =>
    intro stays
    by_cases same : port = p
    · subst same
      have written : look ((s.setManagement { s.management with queue := rest }).writePortOf q port on notices).ports port =
          (look s.ports port).configure on notices := look_put_self _ _ _
      rw [written] at stays
      rw [State.HasEvent, written, FieldPort.configure_received_of_enabled stays]
      exact h
    · have untouched : look ((s.setManagement { s.management with queue := rest }).writePortOf q port on notices).ports p =
          look s.ports p := look_put_ne _ _ same
      rw [State.HasEvent, untouched]
      exact h
  · exact fun _ => h

/-- A waiting event waits on, but for a start, a reset, and a WRITE-PORT that disables its port. -/
theorem exec_hasEvent {c : Instr} (h : s.HasEvent p) (e : exec c s = .next t) (notStart : c ≠ .classificationStart)
    (notReset : ¬Resets c) (enabled : c = .writePort → (look t.ports p).enabled = true) : t.HasEvent p := by
  cases c with
  | classificationStart => exact absurd rfl notStart
  | resetNRelease lines => exact absurd (.inl ⟨lines, rfl⟩) notReset
  | resetTraffic => exact absurd (.inr (.inl rfl)) notReset
  | resetFull => exact absurd (.inr (.inr rfl)) notReset
  | resetNLow =>
    cases e
    rw [State.HasEvent, look_tabulate]
    exact h
  | lineComesLive link =>
    cases link with
    | field q =>
      cases e
      exact h.fieldLive q
    | trunk =>
      cases e
      exact h.of_ports (State.trunkLive_parts s).2.1
  | lineGoesDead link =>
    cases link with
    | field q =>
      cases e
      exact h.fieldDead q
    | trunk =>
      cases e
      exact h.trunkDead
  | event q node code cond spare seq payload =>
    rw [exec, execEvent] at e
    exact hasEvent_fieldArrival h e
  | badFrame q symbols =>
    rw [exec, execBadFrame] at e
    exact hasEvent_fieldArrival h e
  | badTrunkFrame symbols =>
    rw [exec, execBadTrunkFrame] at e
    exact hasEvent_trunkArrival h e
  | complete ticket outcome =>
    rw [exec, execComplete] at e
    exact hasEvent_trunkArrival h e
  | completeTop outcome =>
    rw [exec, execCompleteTop] at e
    exact hasEvent_trunkArrival h e
  | pause duration =>
    rw [exec, execPause] at e
    exact hasEvent_trunkArrival h e
  | resume =>
    rw [exec, execResume] at e
    exact hasEvent_trunkArrival h e
  | request tag op operands =>
    rw [exec, execRequest] at e
    exact hasEvent_trunkArrival h e
  | classificationCompletes =>
    rw [exec, execClassificationCompletes] at e
    refine whenRunning_keeps h (fun _ => ?_) e
    split
    · next f _ => exact h.completeFlight f
    · exact h
  | releaseTransmissionStart q =>
    rw [exec, execReleaseTransmissionStart] at e
    refine whenRunning_keeps h (fun _ => ?_) e
    split
    · exact h
    · split_ifs
      · exact h.setPort id
      · exact h
  | releaseCompletes q =>
    rw [exec, execReleaseCompletes] at e
    refine whenRunning_keeps h (fun _ => ?_) e
    split_ifs
    · exact h.setPort id
    · exact h
  | serviceTimerExpires l =>
    rw [exec, execServiceTimerExpires] at e
    refine whenRunning_keeps h (fun _ => ?_) e
    split
    · next r _ =>
      split_ifs
      · exact h.expire l r
      · exact h
    · exact h
  | flushLevel =>
    rw [exec, execFlushLevel] at e
    refine hasEvent_executeOp h (fun q u hu => ?_) e
    split
    · next l _ => exact (hasEvent_levelsUnread p).flush hu l
    · exact hu
  | readPort =>
    rw [exec, execReadPort] at e
    refine hasEvent_executeOp h (fun q u hu => ?_) e
    split
    · exact hu.setPort id
    · exact hu
  | writePort => exact execWritePort_hasEvent h e (enabled rfl)
  | _ => exact h.of_ports ((exec_touches _ e).ports (by decide))

end

end Sys2Proof.Machine
end

section
/-!
The arbiter's turn: what each command leaves of the pointer and of the waiting injection, and how near each start brings a waiting
requester (R49, R50).
-/

namespace Sys2Proof.Machine

/-! ### The Classifier under the other commands -/

/-- No classification starts, the pointer stays, and a waiting injection waits on. -/
structure Classifier.Waits (c d : Classifier) : Prop where
  inFlight : c.inFlight = none → d.inFlight = none
  pointer : d.pointer = c.pointer
  injection : c.injection.isSome → d.injection.isSome

section
variable {s t : State} {c : Instr}

theorem Classifier.Waits.of_same {c d : Classifier} (same : d = c) : c.Waits d :=
  ⟨fun idle => same ▸ idle, same ▸ rfl, fun waits => same ▸ waits⟩

theorem execClassificationCompletes_waits (e : execClassificationCompletes s = .next t) : s.classifier.Waits t.classifier := by
  rw [execClassificationCompletes] at e
  refine whenRunning_keeps (P := fun u => s.classifier.Waits u.classifier) (.of_same rfl) (fun _ => ?_) e
  split
  · next f _ =>
    rw [(s.completeFlight_outside f).2.2.2.2.1]
    exact ⟨fun _ => rfl, rfl, id⟩
  · exact .of_same rfl

theorem execInject_waits (e : execInject s = .next t) : s.classifier.Waits t.classifier := by
  rw [execInject] at e
  refine whenRunning_keeps (P := fun u => s.classifier.Waits u.classifier) (.of_same rfl) (fun _ => ?_) e
  refine State.executeHead_keeps (P := fun u => s.classifier.Waits u.classifier) (.of_same rfl) fun q rest _ _ => ?_
  split_ifs
  · split
    · unfold State.injectEvent
      split
      · exact .of_same rfl
      · exact ⟨id, rfl, fun _ => rfl⟩
    · exact .of_same rfl
  · exact .of_same rfl

/-- Only a start and a reset do more to the Classifier than end a classification or fill the slot of an injection. -/
theorem exec_classifier_waits (e : exec c s = .next t) (notStart : c ≠ .classificationStart) (notReset : ¬Resets c) :
    s.classifier.Waits t.classifier := by
  cases c with
  | classificationStart => exact absurd rfl notStart
  | resetNRelease lines => exact absurd (.inl ⟨lines, rfl⟩) notReset
  | resetTraffic => exact absurd (.inr (.inl rfl)) notReset
  | resetFull => exact absurd (.inr (.inr rfl)) notReset
  | classificationCompletes => exact execClassificationCompletes_waits e
  | inject => exact execInject_waits e
  | _ => exact .of_same ((exec_touches _ e).classifier (by simp [touched]))

/-! ### A reset -/

/-- The Classifier is IDLE and no requester waits. -/
structure State.NoneWaits (s : State) : Prop where
  idle : s.classifier.inFlight = none
  none : ∀ r, s.eligible r = false

theorem State.noneWaits_of_empty (classifier : t.classifier = Classifier.initial)
    (received : ∀ p, (look t.ports p).received = []) : t.NoneWaits := by
  refine ⟨by rw [classifier]; rfl, fun r => ?_⟩
  unfold State.eligible
  split
  · next p _ => rw [received p]; rfl
  · rw [classifier]; rfl

theorem State.released_noneWaits (lines : LineJudgement) (waiting : List Instr) : (State.released lines waiting).NoneWaits := by
  rw [State.released_frame]
  exact State.noneWaits_of_empty rfl fun p => by simp [State.initialised, FieldPort.initial]

theorem State.trafficReset_noneWaits (s : State) (q : QueuedRequest) : (s.trafficReset.answer q .ok []).NoneWaits := by
  have classifier : s.trafficReset.classifier = Classifier.initial := by simp
  have ports : s.trafficReset.ports = tabulate fun p => (look s.ports p).traffic := by simp
  refine State.noneWaits_of_empty classifier fun p => ?_
  have answered : (s.trafficReset.answer q .ok []).ports = s.trafficReset.ports := rfl
  rw [answered, ports, look_tabulate, FieldPort.traffic]

theorem State.fullReset_noneWaits (s : State) (tag : Byte) : (s.fullReset tag).NoneWaits :=
  State.noneWaits_of_empty rfl fun p => by simp [State.fullReset, FieldPort.full, FieldPort.initial]

theorem State.answerBadReset_classifier (s : State) (q : QueuedRequest) : (s.answerBadReset q).classifier = s.classifier := by
  unfold State.answerBadReset
  split_ifs
  · rfl
  · rfl

/-- A reset resets, or leaves the Classifier alone. -/
theorem exec_reset_classifier (reset : Resets c) (e : exec c s = .next t) :
    t.classifier = s.classifier ∨ t.NoneWaits := by
  rcases reset with ⟨lines, rfl⟩ | rfl | rfl
  · cases e
    split_ifs
    · exact .inr (State.released_noneWaits lines s.pending)
    · exact .inl rfl
  · rw [exec, execResetTraffic] at e
    refine whenRunning_keeps (P := fun u => u.classifier = s.classifier ∨ u.NoneWaits) (.inl rfl) (fun _ => ?_) e
    refine State.executeHead_keeps (P := fun u => u.classifier = s.classifier ∨ u.NoneWaits) (.inl rfl) fun q rest _ _ => ?_
    split_ifs
    · exact .inr (State.trafficReset_noneWaits _ q)
    · exact .inl (State.answerBadReset_classifier _ q)
  · rw [exec, execResetFull] at e
    refine whenRunning_keeps (P := fun u => u.classifier = s.classifier ∨ u.NoneWaits) (.inl rfl) (fun _ => ?_) e
    refine State.executeHead_keeps (P := fun u => u.classifier = s.classifier ∨ u.NoneWaits) (.inl rfl) fun q rest _ _ => ?_
    split_ifs
    · exact .inr (State.fullReset_noneWaits _ q.tag)
    · exact .inl (State.answerBadReset_classifier _ q)

/-! ### A start (R50, R51) -/

/-- A classification has started for a requester, and the others wait on. -/
structure State.StartedFor (s t : State) (r : Requester) : Prop where
  flight : t.classifier.inFlight.map FlightEvent.requester = some r
  pointer : t.classifier.pointer = r + 1
  others : ∀ other, other ≠ r → t.eligible other = s.eligible other

theorem State.eligible_of_port (p : PortId) : s.eligible (requesterOf p) = !(look s.ports p).received.isEmpty := by
  rw [State.eligible, portOf_castLE]

theorem State.startFor_started {r : Requester} (eligible : s.eligible r = true) : s.StartedFor (s.startFor r) r := by
  cases origin : portOf r with
  | some p =>
    obtain rfl := portOf_eq_some origin
    obtain ⟨e, rest, received⟩ := List.exists_cons_of_ne_nil ((s.eligible_port p).mp eligible)
    rw [State.startFor_port received]
    refine ⟨rfl, rfl, fun other ne => ?_⟩
    cases others : portOf other with
    | some q =>
      obtain rfl := portOf_eq_some others
      have different : p ≠ q := fun same => ne (congrArg requesterOf same.symm)
      rw [State.eligible_of_port, State.eligible_of_port, State.setClassifier_ports, State.setPort_ports,
        look_put_ne _ _ different]
    | none =>
      obtain rfl := portOf_eq_none others
      rfl
  | none =>
    obtain rfl := portOf_eq_none origin
    obtain ⟨i, injection⟩ := Option.isSome_iff_exists.mp ((s.eligible_internal).symm.trans eligible)
    rw [State.startFor_internal injection]
    refine ⟨rfl, rfl, fun other ne => ?_⟩
    cases others : portOf other with
    | some q =>
      obtain rfl := portOf_eq_some others
      rw [State.eligible_of_port, State.eligible_of_port, State.setClassifier_ports]
    | none => exact absurd (portOf_eq_none others) ne

/-- A start changes nothing, or the chosen requester's event is in flight. -/
theorem exec_start_cases (e : exec .classificationStart s = .next t) :
    t = s ∨ ∃ r, s.classifier.inFlight = none ∧ s.chosen = some r ∧ s.StartedFor t r := by
  rw [exec, execClassificationStart] at e
  refine whenRunning_keeps (P := fun u => u = s ∨ ∃ r, s.classifier.inFlight = none ∧ s.chosen = some r ∧ s.StartedFor u r)
    (.inl rfl) (fun _ => ?_) e
  split_ifs with may
  · split
    · next r chosen =>
      exact .inr ⟨r, (State.mayClassify_iff.mp may).1, chosen, State.startFor_started (List.find?_some chosen)⟩
    · exact .inl rfl
  · exact .inl rfl

/-- From the pointer on, no eligible requester comes before the chosen one. -/
theorem State.chosen_first {r chosen : Requester} (isChosen : s.chosen = some chosen) (eligible : s.eligible r = true) :
    (chosen - s.classifier.pointer).val ≤ (r - s.classifier.pointer).val := by
  obtain ⟨-, i, bound, place, before⟩ := List.find?_eq_some_iff_getElem.mp isChosen
  have isPlace : (chosen - s.classifier.pointer).val = i := by
    rw [← place]
    simp
  by_contra later
  have barred := before (r - s.classifier.pointer).val (by omega)
  simp [eligible] at barred

/-- The requesters' circle: past another one that comes no later, a requester is nearer. -/
theorem requester_nearer : ∀ pointer r other : Requester, (other - pointer).val ≤ (r - pointer).val → other ≠ r →
    (r - (other + 1)).val < (r - pointer).val := by
  decide

/-- A start for another requester brings a waiting one nearer. -/
theorem exec_start_nearer {f : FlightEvent} {r : Requester} (idle : s.classifier.inFlight = none) (eligible : s.eligible r = true)
    (e : exec .classificationStart s = .next t) (started : t.classifier.inFlight = some f) (other : f.requester ≠ r) :
    (r - t.classifier.pointer).val < (r - s.classifier.pointer).val := by
  rcases exec_start_cases e with rfl | ⟨chosen, -, isChosen, startedFor⟩
  · rw [idle] at started
    cases started
  · have isRequester : f.requester = chosen := by
      have flight := startedFor.flight
      rw [started] at flight
      exact Option.some.inj flight
    rw [startedFor.pointer]
    exact requester_nearer _ r chosen (State.chosen_first isChosen eligible) (isRequester ▸ other)

/-! ### A waiting requester -/

/-- A requester waits on, or a start takes its event. -/
theorem exec_eligible {r : Requester} (eligible : s.eligible r = true) (e : exec c s = .next t) (notReset : ¬Resets c)
    (enabled : c = .writePort → ∀ p : PortId, r = p.castLE (by decide) → (look t.ports p).enabled = true) :
    t.eligible r = true ∨
      c = .classificationStart ∧ s.classifier.inFlight = none ∧ t.classifier.inFlight.map FlightEvent.requester = some r := by
  by_cases isStart : c = .classificationStart
  · subst isStart
    rcases exec_start_cases e with rfl | ⟨chosen, idle, -, started⟩
    · exact .inl eligible
    · by_cases same : r = chosen
      · exact .inr ⟨rfl, idle, same ▸ started.flight⟩
      · exact .inl ((started.others r same).trans eligible)
  · refine .inl ?_
    cases origin : portOf r with
    | some p =>
      obtain rfl := portOf_eq_some origin
      rw [State.eligible_port] at eligible ⊢
      exact exec_hasEvent (p := p) eligible e isStart notReset fun isWrite => enabled isWrite p rfl
    | none =>
      obtain rfl := portOf_eq_none origin
      rw [State.eligible_internal] at eligible ⊢
      exact (exec_classifier_waits e isStart notReset).injection eligible

end

/-! ### A run (R50) -/

section
variable {commands : Nat → Instr} {states : Nat → State} {r : Requester} {n : Nat}

theorem startsAt_iff {i : Nat} : startsAt states i = true ↔
    (states i).classifier.inFlight = none ∧ ∃ f, (states (i + 1)).classifier.inFlight = some f := by
  rw [startsAt, Bool.and_eq_true, Option.isNone_iff_eq_none, Option.isSome_iff_exists]

/-- What starts a classification is a start. -/
theorem start_of_startsAt (run : Run commands states) {i : Nat} (starts : startsAt states i = true) :
    commands i = .classificationStart := by
  obtain ⟨idle, f, started⟩ := startsAt_iff.mp starts
  by_contra notStart
  have stillIdle : (states (i + 1)).classifier.inFlight = none := by
    by_cases reset : Resets (commands i)
    · rcases exec_reset_classifier reset (run i) with same | none
      · rw [same, idle]
      · exact none.idle
    · exact (exec_classifier_waits (run i) notStart reset).inFlight idle
  rw [stillIdle] at started
  cases started

/-- A requester that waits across a start for another one is nearer after it. -/
theorem nearer_of_startsAt (run : Run commands states) {i : Nat} (waits : (states i).eligible r = true)
    (starts : startsAt states i = true)
    (other : (states (i + 1)).classifier.inFlight.map FlightEvent.requester ≠ some r) :
    (r - (states (i + 1)).classifier.pointer).val < (r - (states i).classifier.pointer).val := by
  obtain ⟨idle, f, started⟩ := startsAt_iff.mp starts
  have executes := run i
  rw [start_of_startsAt run starts] at executes
  refine exec_start_nearer idle waits executes started fun same => other ?_
  rw [started, Option.map_some, same]

/-- Where no classification starts and a requester still waits, the pointer stays. -/
theorem pointer_of_not_startsAt (run : Run commands states) {i : Nat} (still : (states (i + 1)).eligible r = true)
    (notStarts : startsAt states i = false) : (states (i + 1)).classifier.pointer = (states i).classifier.pointer := by
  have executes := run i
  by_cases isStart : commands i = .classificationStart
  · rw [isStart] at executes
    rcases exec_start_cases executes with same | ⟨chosen, idle, -, started⟩
    · rw [same]
    · obtain ⟨f, inFlight, -⟩ := Option.map_eq_some_iff.mp started.flight
      rw [startsAt_iff.mpr ⟨idle, f, inFlight⟩] at notStarts
      cases notStarts
  · by_cases reset : Resets (commands i)
    · rcases exec_reset_classifier reset executes with same | none
      · rw [same]
      · rw [none.none r] at still
        cases still
    · exact (exec_classifier_waits executes isStart reset).pointer

theorem countP_range_succ (m : Nat) :
    (List.range (m + 1)).countP (startsAt states) = (List.range m).countP (startsAt states) + (startsAt states m).toNat := by
  rw [List.range_succ, List.countP_append, List.countP_singleton]
  cases startsAt states m <;> rfl

/-- While a requester waits and none of the starts is its own, each of them has brought it nearer. -/
theorem starts_bounded (run : Run commands states) (waits : ∀ i, i < n → (states i).eligible r = true)
    (never : ∀ i, i < n → startsAt states i = true →
      (states (i + 1)).classifier.inFlight.map FlightEvent.requester ≠ some r) :
    ∀ m, m < n → (r - (states m).classifier.pointer).val + (List.range m).countP (startsAt states) ≤
      (r - (states 0).classifier.pointer).val := by
  intro m
  induction m with
  | zero => intro _; simp
  | succ m ih =>
    intro bound
    have before := ih (by omega)
    rw [countP_range_succ]
    cases starts : startsAt states m with
    | true =>
      have nearer := nearer_of_startsAt run (waits m (by omega)) starts (never m (by omega) starts)
      rw [Bool.toNat_true]
      omega
    | false =>
      rw [pointer_of_not_startsAt run (waits (m + 1) bound) starts, Bool.toNat_false]
      omega

/-- Seven starts do not all pass a requester that waits. -/
theorem own_start_among_seven (run : Run commands states) (waits : ∀ i, i < n → (states i).eligible r = true)
    (seven : 7 ≤ (List.range n).countP (startsAt states)) :
    ∃ i, i < n ∧ startsAt states i = true ∧ (states (i + 1)).classifier.inFlight.map FlightEvent.requester = some r := by
  by_contra passed
  have never : ∀ i, i < n → startsAt states i = true →
      (states (i + 1)).classifier.inFlight.map FlightEvent.requester ≠ some r :=
    fun i bound starts own => passed ⟨i, bound, starts, own⟩
  cases n with
  | zero => simp at seven
  | succ m =>
    have bounded := starts_bounded run waits never m (Nat.lt_succ_self m)
    have near := (r - (states 0).classifier.pointer).isLt
    rw [countP_range_succ] at seven
    cases starts : startsAt states m with
    | true =>
      have nearer := nearer_of_startsAt run (waits m (Nat.lt_succ_self m)) starts (never m (Nat.lt_succ_self m) starts)
      rw [starts, Bool.toNat_true] at seven
      omega
    | false =>
      rw [starts, Bool.toNat_false] at seven
      omega

end

/-- Settles O26: a waiting event waits on, the pointer moves at starts alone, and each start for another requester shortens a
distance that is below seven. -/
theorem everyStartBringsAWaitingRequesterNearer : Obligations.EveryStartBringsAWaitingRequesterNearer := by
  unfold Obligations.EveryStartBringsAWaitingRequesterNearer
  exact ⟨fun c s t r eligible e notReset enabled => exec_eligible eligible e notReset enabled,
    fun c s t e notReset notStart => (exec_classifier_waits e notStart notReset).pointer,
    fun s t f r idle eligible e started other => exec_start_nearer idle eligible e started other,
    fun commands states r n run waits seven => own_start_among_seven run waits seven⟩

end Sys2Proof.Machine
end
